-- ==== Sys2Proof/Word.lean ====
section
/-! DEFINITION. The two word widths of the ring link and of the mailbox (00_scope.md, section 4.0: a word is 16 bits). -/

namespace Sys2Proof

/-- One word of a ring frame. -/
abbrev Word := BitVec 16

/-- Half a frame word: a command code, a tag, a record index. -/
abbrev Byte := BitVec 8

end Sys2Proof
end

