-- ==== Sys2Proof/Syntax.lean ====
section
/-! DEFINITION. The commands of the block: one constructor for each row of spec/opcode_table.json.

Rows that pass words of a frame carry, as `skipped`, the words that passed between the row before and this one (W1, slots of other
nodes, the tail of the result area): R13 forms the CRC over every word, and the table has no row for a word that the device only
forwards. Mailbox rows carry the tag and the parameter words as received (R183, R184), so that refused values have their rows too. -/

namespace Sys2Proof

inductive Instr where
  /-- R22, R178: RSTN rises with these strap levels. -/
  | powerOnReset (straps : BitVec 5)
  /-- R2, R22: RSTN falls. -/
  | rstnFall
  /-- R2: a whole frame of another kind passes: W0 and the words after it. -/
  | nonCycleFrame (w0 : Word) (rest : List Word)
  /-- R3, R7: W0 of a CYCLE frame passes. -/
  | cycleFrameW0 (w0 : Word)
  /-- R8, R11: W2 passes, after the skipped word W1. -/
  | breakWordPassing (skipped : List Word) (w : Word)
  /-- R8: a slot bound INPUT passes. -/
  | stageInputSlot (skipped : List Word) (w : Word)
  /-- R8: the slot bound CONTROL passes. -/
  | stageControlSlot (skipped : List Word) (w : Word)
  /-- R9, R155: a slot bound OUTPUT passes. -/
  | outputSlotPassing (skipped : List Word) (w : Word)
  /-- R10: the slot bound STATUS passes. -/
  | statusSlotPassing (skipped : List Word) (w : Word)
  /-- R8: the thirteen words of the command area pass. -/
  | stageCommandArea (skipped : List Word) (area : Vector Word 13)
  /-- R12: word 0 of the result area passes. -/
  | resultAreaPassing (skipped : List Word) (w : Word)
  /-- R13: the two CRC words pass, high half first. -/
  | crcPassing (skipped : List Word) (high low : Word)
  /-- R3, R14: the frame ends, after the skipped words, at its end delimiter or at loss of signal. -/
  | cycleCompletion (skipped : List Word) (lossOfSignal : Bool)
  /-- R171: the recording of a completion, good or bad, that ends a WINDOW post countdown. -/
  | captureWindowExpiry (good : Bool)
  /-- R21: one tick of 100 µs at every block that counts ticks. -/
  | tick
  /-- R37: the tick at one channel that makes it STALE. -/
  | channelAgeStale (c : Fin 32)
  /-- R37: the tick at one channel that makes it FAILED. -/
  | channelAgeFailed (c : Fin 32)
  /-- R15: the tick at the Ring Port that ends the cycle timeout countdown. -/
  | cycleTimeoutExpiry
  /-- R89: the tick at one zone that ends its purge. -/
  | purgeExpiry (z : Fin 12)
  /-- R140: the tick at the Break Monitor that ends the confirmation countdown. -/
  | confirmationExpiry
  /-- R114: the clock at one timer unit that makes its terminal event. -/
  | timerExpiry (k : Fin 6)
  /-- R53: the accepted MARK level changes to this level. -/
  | markLevelChange (level : Bool)
  /-- R121, R136: the accepted WBRK level changes to this level. -/
  | wbrkLevelChange (level : Bool)
  /-- R124: the tick at the deferred terms. -/
  | deferredTermSettle
  /-- R159: the passing at one actuator that ends its break delay. -/
  | actuatorDelayExpiry (a : Fin 16)
  /-- R180: a command code outside the catalogue. -/
  | unknownCommand (tag code : Byte)
  | identify (tag : Byte)
  | readStatus (tag : Byte)
  | writeSlotMap (tag record : Byte) (slot roleKind roleIndex : Word)
  | writeLinkRecord (tag : Byte) (cycleTimeout badLimit : Word)
  | readSlotMap (tag record : Byte)
  | writeChannelScale (tag record : Byte) (kind gain offset lo hi alpha : Word)
  | writeChannelLimits (tag record : Byte) (staleLimit failLimit hiLimit loLimit hyst failState enables : Word)
  | readChannel (tag record : Byte) (part : Word)
  | readChannelState (tag record : Byte)
  | writeSpeedConfig (tag record : Byte) (speedChannel crawlSpeed runSpeed accelBand leadFactor : Word)
  | readSpeedConfig (tag record : Byte)
  /-- R183: the packed header P0 and the nine breakpoint words P1..P9. -/
  | writeProfile (tag : Byte) (header : Word) (points : Vector Word 9)
  | readProfileShadow (tag record : Byte) (first : Word)
  | readProfileActive (tag record : Byte) (first : Word)
  | commitProfile (tag : Byte)
  | writeZoneSetup (tag record : Byte) (enabled measChannel spMin spMax preheatSetpoint rampStep autoTrack : Word)
  | writeZoneLoop (tag record : Byte) (kp ki outMin outMax slewMax : Word)
  | writeZoneSafety (tag record : Byte) (overBand purgeOutput faultOutput purgeTime : Word)
  | readZone (tag record : Byte) (part : Word)
  | readZoneState (tag record : Byte)
  | setZoneMode (tag : Byte) (mask mode : Word)
  | writeTimer (tag record : Byte) (mode input edge clock n hold : Word)
  | readTimer (tag record : Byte)
  | readTimerState (tag record : Byte)
  | writeTerm (tag record : Byte) (a b c d table binding zoneMask eventFlag : Word)
  | readTerm (tag record : Byte)
  | restorePermit (tag : Byte)
  | writeBreakConfig (tag record : Byte) (wbrkEnable wbrkActive membership confirmTime : Word)
  | readBreakConfig (tag record : Byte)
  | readBreakHistory (tag record : Byte)
  | armBreak (tag : Byte)
  | breakNow (tag : Byte)
  | resetBreak (tag : Byte)
  | writeActuatorSource (tag record : Byte) (sourceKind sourceIndex fixedValue onValue offValue slewMax : Word)
  | writeActuatorBreak (tag record : Byte) (action actionValue step delay : Word)
  | readActuator (tag record : Byte) (part : Word)
  | setOutput (tag : Byte) (actuator value : Word)
  /-- R167: mode, D, the number of channels and the four packed words P4..P7. -/
  | writeCaptureConfig (tag record : Byte) (mode decimation count : Word) (packed : Vector Word 4)
  | writeCapturePostCount (tag : Byte) (postCount : Word)
  | readCaptureConfig (tag record : Byte)
  | captureStart (tag : Byte)
  | captureStop (tag : Byte)
  | captureClear (tag : Byte)
  | captureTriggerCommand (tag : Byte)
  | readCapture (tag : Byte)
  | rewindCapture (tag : Byte)
  | configureDone (tag : Byte)
  | readEventsOldest (tag : Byte)
  | readEventsUrgent (tag : Byte)
  | clearEvents (tag : Byte)
  | softReset (tag : Byte)
  /-- R52: the first two successive MARK samples that agree set the accepted level. -/
  | markFirstAcceptance (level : Bool)
  /-- R121: the first two successive WBRK samples that agree set the accepted level. -/
  | wbrkFirstAcceptance (level : Bool)
  deriving DecidableEq, Repr

end Sys2Proof
end

