-- ==== Sys2Proof/Decode.lean ====
section
/-! DEFINITION. The commands that the table gives bits. No row of spec/opcode_table.json gives any (every "fields" is empty): a command of
this block is an event, not a word, so no word spells one (log 13). -/

namespace Sys2Proof

/-- The command that a word spells by the table's bits. -/
def decodeTableWord (_nbits _w : Nat) : Option Instr := none

end Sys2Proof
end

