-- ==== Sys2Proof/Config.lean ====
section
/-! DEFINITION. What the specification fixes for every device (capacities), what it leaves open (free values without a body) and
the model's own constants. -/

namespace Sys2Proof

/-- FREE VALUE (log 3): which of several events that "may be taken in either order" the device takes, at the n-th choice that it
makes by itself. Nothing constrains it. -/
opaque Config.order : Nat → Nat

/-- FREE VALUE (log 5): whether the change by which a deferred term opens its cascade counts as that term's one change within the
cascade. R124's text and the worked example of chapter 7 disagree. -/
opaque Config.deferredChangeCounts : Bool

/-- R188: the Event Queue holds up to 32 records. -/
def Config.eventCapacity : Nat := 32

/-- R143: the Break History holds up to eight records. -/
def Config.historyCapacity : Nat := 8

/-- R42: the speed history holds up to eight samples. -/
def Config.speedHistoryCapacity : Nat := 8

/-- R166: the Capture Buffer retains at most 512 records. -/
def Config.captureCapacity : Nat := 512

/-- R166: HALF is set from 256 retained records on. -/
def Config.captureHalf : Nat := 256

/-- DESIGN CHOICE (log 6): how many events may follow one from another after an originating change, far above the length of any chain that
R124 lets arise. -/
def Config.generations : Nat := 255

/-- One event hands on at most 64 others, so fewer events than this follow from one originating change. -/
def Config.cascadeFuel : Nat := 65 ^ Config.generations

/-- DESIGN CHOICE (log 2): the strap levels of `State.reset`, node address 6, as in the specification's worked passages. -/
def Config.resetStraps : BitVec 5 := 6

end Sys2Proof
end

