-- ==== Sys2Proof/Machine/State.lean ====
section
/-! DEFINITION. The state of the Uthrek 2416: every register, table, queue, counter, mode and line that the specification gives the
device, each record with its power-on values as the defaults of its fields, the queue of waiting commands, and the state after reset. -/

namespace Sys2Proof.Machine

/-! ## Condition addresses (R120) -/

/-- R120: the conditions that terms and timers can read, one constructor for each class of the address space. -/
inductive Cond where
  | fixed (level : Bool)
  | wbrkLevel
  | markLevel
  | permitRequest
  | linkLocked
  | speed (i : Fin 6)
  | brk (i : Fin 3)
  | captureFrozen
  | timer (k : Fin 6)
  | term (j : Fin 8)
  | zoneFault (z : Fin 12)
  | zoneHold (z : Fin 12)
  | chanHi (c : Fin 32)
  | chanLo (c : Fin 32)
  | chanFailed (c : Fin 32)
  | chanDiscrete (c : Fin 32)
  deriving DecidableEq, Repr

/-! ## Lines (00_scope.md section 2.2) -/

/-- The discrete lines. `mark` and `wbrk` are the accepted levels of R52 and R121: none until the first acceptance after RSTN rises. -/
structure Lines where
  rstn : Bool := true
  straps : BitVec 5 := 0
  mark : Option Bool := none
  wbrk : Option Bool := none
  deriving DecidableEq, Repr

/-! ## Ring Port and Slot Map (chapter 1) -/

/-- R4: the role of a Slot Map entry. -/
inductive Role where
  | input (c : Fin 32)
  | output (a : Fin 16)
  | status
  | control
  deriving DecidableEq, Repr

/-- R4: a non-empty Slot Map entry. -/
structure SlotEntry where
  slot : Fin 128
  role : Role
  deriving DecidableEq, Repr

/-- R4, R6: the Slot Map with its link record. -/
structure SlotMap where
  entries : Vector (Option SlotEntry) 64 := Vector.replicate 64 none
  cycleTimeout : Nat := 50
  badLimit : Nat := 3
  deriving DecidableEq, Repr

/-- R19. -/
inductive LinkState where
  | searching
  | locked
  | lost
  deriving DecidableEq, Repr

/-- What is passing through the Ring Port: no frame, a CYCLE frame of slot count `n`, a CYCLE frame malformed at W0 (R3), or a frame
forwarded as received without completion (another kind, or RSTN was low during its passage: R2, R22). -/
inductive Passage where
  | idle
  | cycle (n : Nat)
  | malformed
  | transparent
  deriving DecidableEq, Repr

/-- R8: the values staged from the frame in passage. -/
structure Staging where
  inputs : Vector (Option Word) 32 := Vector.replicate 32 none
  control : Option Word := none
  breakWord : Option Word := none
  command : List Word := []
  deriving DecidableEq, Repr

/-- The frame in passage: how many words have passed, the two running CRC registers of R13, the received high CRC word while the low
one is awaited, whether the received CRC matched, the words still to be inserted into the result area (R12), the staging, and the
words sent on RING-OUT, oldest first, for this frame or the last one. -/
structure FramePassage where
  passage : Passage := .idle
  position : Nat := 0
  crcIn : BitVec 32 := BitVec.allOnes 32
  crcOut : BitVec 32 := BitVec.allOnes 32
  crcHigh : Option Word := none
  crcGood : Bool := false
  resultWords : List Word := []
  staging : Staging := {}
  ringOut : List Word := []
  deriving DecidableEq, Repr

/-- R14, R15, R17, R18, R19: the Ring Port's state from frame to frame. -/
structure Port where
  link : LinkState := .searching
  cycleCount : BitVec 32 := 0
  badRun : Nat := 0
  timeoutCountdown : Nat := 50
  permitRequest : Bool := false
  triggerRequest : Bool := false
  frame : FramePassage := {}
  deriving DecidableEq, Repr

/-! ## Input channels (chapter 2) -/

/-- R24. -/
inductive ChannelKind where
  | temp
  | speed
  | percent
  | discrete
  deriving DecidableEq, Repr

/-- R24. -/
inductive Validity where
  | none
  | fresh
  | stale
  | failed
  deriving DecidableEq, Repr

/-- R24, R25: a channel record. `failState` is true for SET. -/
structure Channel where
  kind : ChannelKind := .temp
  gain : Int := 4096
  offset : Int := 0
  lo : Int := -500
  hi : Int := 4500
  alpha : Int := 256
  staleLimit : Nat := 1000
  failLimit : Nat := 5000
  hiLimit : Int := 4500
  loLimit : Int := -500
  hyst : Int := 0
  failState : Bool := false
  enableHi : Bool := false
  enableLo : Bool := false
  enableStale : Bool := false
  raw : Int := 0
  value : Int := 0
  filtered : Int := 0
  age : Nat := 0
  validity : Validity := .none
  hiSet : Bool := false
  loSet : Bool := false
  limited : Bool := false
  deriving DecidableEq, Repr

/-! ## Speed Tracker (chapter 3) -/

/-- R42, R48. -/
inductive SpeedState where
  | unknown
  | stopped
  | crawl
  | accel
  | decel
  | steady
  deriving DecidableEq, Repr

/-- R42: the tracker's configuration and dynamic state. The history is oldest first; its length is the count. -/
structure Speed where
  speedChannel : Fin 32 := 0
  crawlSpeed : Int := 5
  runSpeed : Int := 30
  accelBand : Int := 20
  leadFactor : Int := 0
  history : List Int := []
  v : Int := 0
  a : Int := 0
  lead : Int := 0
  state : SpeedState := .unknown
  deriving DecidableEq, Repr

/-! ## Profile Store (chapter 4) -/

/-- R54. -/
structure Breakpoint where
  speed : Int := 0
  setpoint : Int := 0
  feedforward : Int := 0
  deriving DecidableEq, Repr

/-- R54. -/
structure Curve where
  length : Nat := 0
  entries : Vector Breakpoint 16 := Vector.replicate 16 {}
  deriving DecidableEq, Repr

/-- R62: the commit record. -/
structure Commit where
  marked : BitVec 12
  rebased : BitVec 12 := 0
  released : BitVec 12 := 0
  deriving DecidableEq, Repr

/-- R54, R62. -/
structure ProfileStore where
  shadow : Vector Curve 12 := Vector.replicate 12 {}
  active : Vector Curve 12 := Vector.replicate 12 {}
  commit : Option Commit := none
  deriving DecidableEq, Repr

/-! ## Zones (chapter 5) -/

/-- R70: fixed by the zone's index. -/
inductive ZoneKind where
  | dryer
  | chill
  deriving DecidableEq, Repr

/-- R70. -/
inductive Mode where
  | off
  | preheat
  | track
  | hold
  | purge
  | fault
  deriving DecidableEq, Repr

/-- R70: the mode a HOLD zone returns to. -/
inductive ReturnMode where
  | none
  | preheat
  | track
  | purge
  deriving DecidableEq, Repr

/-- R70, R101. -/
inductive LimitDir where
  | none
  | up
  | down
  deriving DecidableEq, Repr

/-- R70, R71: a zone record. -/
structure Zone where
  enabled : Bool := false
  measChannel : Fin 32 := 0
  spMin : Int := 0
  spMax : Int := 2000
  preheatSetpoint : Int := 0
  rampStep : Int := 10
  autoTrack : Bool := false
  kp : Int := 0
  ki : Int := 0
  outMin : Int := 0
  outMax : Int := 10000
  slewMax : Int := 10000
  overBand : Int := 100
  purgeOutput : Int := 0
  faultOutput : Int := 0
  purgeTime : Nat := 10000
  mode : Mode := .off
  returnMode : ReturnMode := .none
  w : Int := 0
  i : Int := 0
  u : Int := 0
  limitDir : LimitDir := .none
  bumpless : Bool := false
  purgeCount : Nat := 0
  faultDeferred : Bool := false
  deriving DecidableEq, Repr

/-! ## Timer Units (chapter 6) -/

/-- R104. -/
inductive TimerMode where
  | delay
  | oneShot
  | gap
  | edge
  | count
  deriving DecidableEq, Repr

/-- R104. -/
inductive EdgeSelect where
  | rise
  | fall
  | both
  deriving DecidableEq, Repr

/-- R104, R107. -/
inductive ClockSource where
  | tick
  | cycle
  | mark
  | cascade
  deriving DecidableEq, Repr

/-- R104, R105: a timer record. `counting` is the stored flag of the four timed modes; in COUNT mode it follows the input. -/
structure Timer where
  mode : TimerMode := .delay
  input : Cond := .fixed false
  edge : EdgeSelect := .rise
  clock : ClockSource := .tick
  n : Nat := 1
  hold : Cond := .fixed false
  counting : Bool := false
  count : Nat := 0
  output : Bool := false
  inputLevel : Bool := false
  latchPending : Bool := false
  latchN : Nat := 1
  deriving DecidableEq, Repr

/-! ## Interlock terms and Fire Permit (chapter 7) -/

/-- R122. -/
inductive Binding where
  | none
  | fireQualifier
  | hardBreak
  | softBreak
  | webPresent
  | captureTrigger
  | zoneHold
  deriving DecidableEq, Repr

/-- R122: a term record. -/
structure Term where
  a : Cond := .fixed false
  b : Cond := .fixed false
  c : Cond := .fixed false
  d : Cond := .fixed false
  table : Word := 0
  binding : Binding := .none
  zoneMask : BitVec 12 := 0
  eventFlag : Bool := false
  value : Bool := false
  deferred : Bool := false
  deriving DecidableEq, Repr

/-- R130. -/
inductive Permit where
  | asserted
  | dropped
  deriving DecidableEq, Repr

/-! ## Break Monitor (chapter 8) -/

/-- R134. -/
inductive BreakState where
  | disarmed
  | armed
  | suspect
  | broken
  deriving DecidableEq, Repr

/-- R143: the cause kinds of a declaration. -/
inductive BreakCause where
  | line
  | token
  | hardTerm
  | softTerm
  | command
  deriving DecidableEq, Repr

/-- R143: a Break History record. -/
structure BreakRecord where
  cause : BreakCause
  causeIndex : Nat
  stamp : BitVec 32
  lead : Int
  trackMask : BitVec 12
  suspectDuration : Nat
  sequence : Word
  deriving DecidableEq, Repr

/-- R134: `wbrkActive` is true for HIGH. -/
structure Monitor where
  wbrkEnable : Bool := false
  wbrkActive : Bool := true
  membership : Byte := 0
  confirmTime : Nat := 5000
  state : BreakState := .disarmed
  countdown : Nat := 0
  suspectTicks : Nat := 0
  lastNotice : Byte := 0
  lastAssert : Byte := 0
  history : List BreakRecord := []
  declarations : Word := 0
  deriving DecidableEq, Repr

/-! ## Actuators (chapter 9) -/

/-- R152. -/
inductive SourceKind where
  | fixed
  | zone
  | term
  deriving DecidableEq, Repr

/-- R152: the source of an actuator, with the index that its kind gives a meaning. -/
inductive Source where
  | fixed
  | zone (z : Fin 12)
  | term (j : Fin 8)
  deriving DecidableEq, Repr

/-- R152. -/
inductive BreakAction where
  | follow
  | hold
  | force
  | ramp
  deriving DecidableEq, Repr

/-- R152. -/
inductive Phase where
  | none
  | delaying
  | acting
  deriving DecidableEq, Repr

/-- R152: an actuator record. -/
structure Actuator where
  source : Source := .fixed
  fixedValue : Int := 0
  onValue : Int := 0
  offValue : Int := 0
  slewMax : Int := 10000
  action : BreakAction := .follow
  actionValue : Int := 0
  step : Int := 100
  delay : Nat := 0
  value : Int := 0
  phase : Phase := .none
  countdown : Nat := 0
  converging : Bool := false
  unseen : Bool := false
  deriving DecidableEq, Repr

/-! ## Capture Buffer (chapter 10) -/

/-- R165. -/
inductive CaptureMode where
  | pre
  | post
  | window
  deriving DecidableEq, Repr

/-- R165. -/
inductive CaptureState where
  | idle
  | running
  | waiting
  | postfill
  | frozen
  deriving DecidableEq, Repr

/-- R166: a capture record; each entry is a filtered value with its validity. -/
structure CaptureRecord where
  stamp : BitVec 32
  good : Bool
  lead : Int
  breakState : BreakState
  mark : Bool
  entries : List (Int × Validity)
  deriving DecidableEq, Repr

/-- R165: the Capture Buffer; records oldest first. -/
structure Capture where
  channels : List (Fin 32) := []
  decimation : Nat := 1
  mode : CaptureMode := .pre
  postCount : Nat := 256
  latchPending : Bool := false
  latchP : Nat := 256
  state : CaptureState := .idle
  records : List CaptureRecord := []
  position : Nat := 0
  counter : Nat := 0
  countdown : Nat := 0
  markOwed : Bool := false
  lastRequest : Bool := false
  deriving DecidableEq, Repr

/-! ## Mailbox and Event Queue (chapter 11) -/

/-- R182. -/
inductive ResultCode where
  | ok
  | unknownCommand
  | badParam
  | state
  | configInvalid
  | profileInvalid
  | notReady
  | sourceActive
  | purging
  | transition
  | empty
  deriving DecidableEq, Repr

/-- R178, R181: a result awaiting delivery. -/
structure MailResult where
  code : ResultCode
  tag : Byte
  command : Byte
  data : Vector Word 13
  deriving DecidableEq, Repr

/-- R178: the code and tag of the command now executing. -/
structure Executing where
  code : Byte
  tag : Byte
  deriving DecidableEq, Repr

/-- R178: `ready` is the part state: false UNCONFIGURED, true READY. -/
structure Mailbox where
  nodeAddress : BitVec 5 := 0
  executing : Option Executing := none
  pending : Option MailResult := none
  written : Bool := false
  ready : Bool := false
  deriving DecidableEq, Repr

/-- R188: the event kinds. -/
inductive EventKind where
  | breakDeclared
  | breakSuspect
  | suspectCleared
  | breakReset
  | zoneFault
  | channelFailed
  | permitDropped
  | linkLost
  | channelHi
  | channelLo
  | termChanged
  | channelStale
  | channelFresh
  | zoneHold
  | zoneResume
  | slotUnseen
  | frameBad
  | captureTriggered
  | captureFrozen
  | commitDone
  | permitRestored
  | resetDone
  | linkLocked
  deriving DecidableEq, Repr

/-- R188: an event record. -/
structure EventRecord where
  kind : EventKind
  source : Byte
  stamp : BitVec 32
  value : Word
  deriving DecidableEq, Repr

/-- R188: the Event Queue; records oldest first. -/
structure EventQueue where
  records : List EventRecord := []
  overrun : Bool := false
  deriving DecidableEq, Repr

/-- THE MODEL'S OWN state, not the specification's (log 3): the choices that settle which of several events is taken first.
`schedule` holds choices that are already settled; when it is empty the next choice is `Config.order` at `used`. -/
structure Choices where
  schedule : List Nat := []
  used : Nat := 0
  deriving DecidableEq, Repr

/-- The device: all of its blocks. -/
structure Device where
  lines : Lines := {}
  port : Port := {}
  slotMap : SlotMap := {}
  channels : Vector Channel 32 := Vector.replicate 32 {}
  speed : Speed := {}
  profile : ProfileStore := {}
  zones : Vector Zone 12 := Vector.ofFn fun z => { measChannel := z.castLE (by decide) }
  timers : Vector Timer 6 := Vector.replicate 6 {}
  terms : Vector Term 8 := Vector.replicate 8 {}
  permit : Permit := .dropped
  monitor : Monitor := {}
  actuators : Vector Actuator 16 := Vector.replicate 16 {}
  capture : Capture := {}
  mailbox : Mailbox := {}
  events : EventQueue := {}
  choices : Choices := {}
  /-- THE MODEL'S OWN state (log 27): the zones that a declaration has taken out of PREHEAT since the last tick and the start of the frame, bit z
  for zone Zz. -/
  breakMet : BitVec 12 := 0
  deriving DecidableEq, Repr

/-- The device and the queue of commands that wait for it, first in, first out. -/
structure State where
  dev : Device
  pending : List Instr
  deriving DecidableEq, Repr

/-- Why a step can stop with a fault. No command of this block raises one: the specification gives every command an effect. -/
inductive Fault where
  /-- Raised by nobody; it stands so that the type has a value. Safe. -/
  | none
  deriving DecidableEq, Repr

/-- Why a step can refuse. -/
inductive Refusal where
  /-- Raised by an arm of `exec` whose command has no meaning yet (there is none). Safe: nothing is claimed of a refused step. -/
  | notModelled (mnemonic : String)
  deriving DecidableEq, Repr

/-- R22 and the POWER-ON columns of every chapter: the device just after RSTN has risen with these straps. -/
def Device.atPowerOn (straps : BitVec 5) : Device :=
  { lines := { rstn := true, straps := straps }
    mailbox := { nodeAddress := straps } }

/-- The machine right after power-on reset: every field at the value that the chapters' POWER-ON columns give, no command waiting. The
strap levels are the model's choice (log 2). -/
def State.reset : State := { dev := Device.atPowerOn Config.resetStraps, pending := [] }

end Sys2Proof.Machine
end

