-- ==== Sys2Proof/Machine/Operands.lean ====
section
/-! DEFINITION. How command parameters and result words are read and written: signed and unsigned words, the codes that the chapters
give their enumerations, condition addresses (R120), masks, and the thirteen data words of a result. -/

namespace Sys2Proof.Machine

/-! ## Arithmetic (00_scope.md section 4.0) -/

/-- Clamp: the nearer end of `lo..hi` when the value lies outside, the value itself otherwise. -/
def clamp (lo hi x : Int) : Int := if x < lo then lo else if hi < x then hi else x

/-- `x` moved toward `target` by at most `step`, never past it (R95, R154, R158). -/
def moveToward (step target x : Int) : Int :=
  if x < target then min (x + step) target else if target < x then max (x - step) target else x

/-- The value lies in `lo..hi`, both included. -/
def inRange (lo hi x : Int) : Bool := decide (lo ≤ x) && decide (x ≤ hi)

/-! ## Words -/

/-- A value as a result word: two's complement where it is signed. -/
def toWord (x : Int) : Word := BitVec.ofInt 16 x

/-- A count as a result word. -/
def natWord (n : Nat) : Word := BitVec.ofNat 16 n

/-- A flag as a result word: 1 or 0. -/
def boolWord (b : Bool) : Word := if b then 1 else 0

/-- A signed parameter (R184). -/
def signed (w : Word) : Int := w.toInt

/-- An unsigned parameter. -/
def unsigned (w : Word) : Int := (w.toNat : Int)

/-- The high half of a 32-bit count. -/
def highHalf (x : BitVec 32) : Word := x.extractLsb' 16 16

/-- The low half of a 32-bit count. -/
def lowHalf (x : BitVec 32) : Word := x.extractLsb' 0 16

/-- The high byte of a word. -/
def highByte (w : Word) : Byte := w.extractLsb' 8 8

/-- The low byte of a word. -/
def lowByte (w : Word) : Byte := w.extractLsb' 0 8

/-- Two bytes in one word. -/
def packBytes (high low : Byte) : Word := high ++ low

/-- A record index within a table of `n` records. -/
def recordIndex (n : Nat) (record : Byte) : Option (Fin n) :=
  if h : record.toNat < n then some ⟨record.toNat, h⟩ else none

/-- An index carried in a whole parameter word. -/
def wordIndex (n : Nat) (w : Word) : Option (Fin n) :=
  if h : w.toNat < n then some ⟨w.toNat, h⟩ else none

/-- R184: a yes/no parameter: 1 or 0. Another value names neither (log 8). -/
def yesNo (w : Word) : Option Bool :=
  if w = 1 then some true else if w = 0 then some false else none

/-- R181: the thirteen data words of a result; words that a rule does not give are 0. -/
def dataWords (ws : List Word) : Vector Word 13 := Vector.ofFn fun i => ws.getD i.val 0

/-- R183: the parameter words P0..P9 of a staged command area (words 3..12). -/
def paramOf (area : List Word) (i : Nat) : Word := area.getD (3 + i) 0

/-! ## Codes of the enumerations -/

/-- R184. -/
def ChannelKind.ofCode (w : Word) : Option ChannelKind :=
  match w.toNat with
  | 0 => some .temp
  | 1 => some .speed
  | 2 => some .percent
  | 3 => some .discrete
  | _ => none

/-- R184. -/
def ChannelKind.code : ChannelKind → Nat
  | .temp => 0
  | .speed => 1
  | .percent => 2
  | .discrete => 3

/-- R24: the kind limits; DISCRETE has none. -/
def ChannelKind.limits : ChannelKind → Option (Int × Int)
  | .temp => some (-500, 4500)
  | .speed => some (0, 1500)
  | .percent => some (0, 10000)
  | .discrete => none

/-- R28. -/
def Validity.code : Validity → Nat
  | .none => 0
  | .fresh => 1
  | .stale => 2
  | .failed => 3

/-- R44, R51. -/
def SpeedState.code : SpeedState → Nat
  | .unknown => 0
  | .stopped => 1
  | .crawl => 2
  | .accel => 3
  | .decel => 4
  | .steady => 5

/-- R185. -/
def LinkState.code : LinkState → Nat
  | .searching => 0
  | .locked => 1
  | .lost => 2

/-- R70. -/
def Mode.code : Mode → Nat
  | .off => 0
  | .preheat => 1
  | .track => 2
  | .hold => 3
  | .purge => 4
  | .fault => 5

/-- R70, R78. -/
def Mode.ofCode (w : Word) : Option Mode :=
  match w.toNat with
  | 0 => some .off
  | 1 => some .preheat
  | 2 => some .track
  | 3 => some .hold
  | 4 => some .purge
  | 5 => some .fault
  | _ => none

/-- R70. -/
def ReturnMode.code : ReturnMode → Nat
  | .none => 0
  | .preheat => 1
  | .track => 2
  | .purge => 4

/-- R75. -/
def LimitDir.code : LimitDir → Nat
  | .none => 0
  | .up => 1
  | .down => 2

/-- R104. -/
def TimerMode.ofCode (w : Word) : Option TimerMode :=
  match w.toNat with
  | 0 => some .delay
  | 1 => some .oneShot
  | 2 => some .gap
  | 3 => some .edge
  | 4 => some .count
  | _ => none

/-- R104. -/
def TimerMode.code : TimerMode → Nat
  | .delay => 0
  | .oneShot => 1
  | .gap => 2
  | .edge => 3
  | .count => 4

/-- R104. -/
def EdgeSelect.ofCode (w : Word) : Option EdgeSelect :=
  match w.toNat with
  | 0 => some .rise
  | 1 => some .fall
  | 2 => some .both
  | _ => none

/-- R104. -/
def EdgeSelect.code : EdgeSelect → Nat
  | .rise => 0
  | .fall => 1
  | .both => 2

/-- R104. -/
def ClockSource.ofCode (w : Word) : Option ClockSource :=
  match w.toNat with
  | 0 => some .tick
  | 1 => some .cycle
  | 2 => some .mark
  | 3 => some .cascade
  | _ => none

/-- R104. -/
def ClockSource.code : ClockSource → Nat
  | .tick => 0
  | .cycle => 1
  | .mark => 2
  | .cascade => 3

/-- R122. -/
def Binding.ofCode (w : Word) : Option Binding :=
  match w.toNat with
  | 0 => some .none
  | 1 => some .fireQualifier
  | 2 => some .hardBreak
  | 3 => some .softBreak
  | 4 => some .webPresent
  | 5 => some .captureTrigger
  | 6 => some .zoneHold
  | _ => Option.none

/-- R122. -/
def Binding.code : Binding → Nat
  | .none => 0
  | .fireQualifier => 1
  | .hardBreak => 2
  | .softBreak => 3
  | .webPresent => 4
  | .captureTrigger => 5
  | .zoneHold => 6

/-- R134. -/
def BreakState.code : BreakState → Nat
  | .disarmed => 0
  | .armed => 1
  | .suspect => 2
  | .broken => 3

/-- R143. -/
def BreakCause.code : BreakCause → Nat
  | .line => 1
  | .token => 2
  | .hardTerm => 3
  | .softTerm => 4
  | .command => 5

/-- R152. -/
def Source.kind : Source → SourceKind
  | .fixed => .fixed
  | .zone _ => .zone
  | .term _ => .term

/-- R152. -/
def SourceKind.code : SourceKind → Nat
  | .fixed => 0
  | .zone => 1
  | .term => 2

/-- R152, R162: the index that a source carries; FIXED stores 0. -/
def Source.index : Source → Nat
  | .fixed => 0
  | .zone z => z.val
  | .term j => j.val

/-- R162: a source kind code with an index in the kind's range; the index of FIXED is not checked. -/
def Source.ofCodes (kind index : Word) : Option Source :=
  match kind.toNat with
  | 0 => some .fixed
  | 1 => (wordIndex 12 index).map .zone
  | 2 => (wordIndex 8 index).map .term
  | _ => none

/-- R152. -/
def BreakAction.ofCode (w : Word) : Option BreakAction :=
  match w.toNat with
  | 0 => some .follow
  | 1 => some .hold
  | 2 => some .force
  | 3 => some .ramp
  | _ => none

/-- R152. -/
def BreakAction.code : BreakAction → Nat
  | .follow => 0
  | .hold => 1
  | .force => 2
  | .ramp => 3

/-- R152. -/
def Phase.code : Phase → Nat
  | .none => 0
  | .delaying => 1
  | .acting => 2

/-- R165. -/
def CaptureMode.ofCode (w : Word) : Option CaptureMode :=
  match w.toNat with
  | 0 => some .pre
  | 1 => some .post
  | 2 => some .window
  | _ => none

/-- R165. -/
def CaptureMode.code : CaptureMode → Nat
  | .pre => 0
  | .post => 1
  | .window => 2

/-- R165. -/
def CaptureState.code : CaptureState → Nat
  | .idle => 0
  | .running => 1
  | .waiting => 2
  | .postfill => 3
  | .frozen => 4

/-- R182. -/
def ResultCode.code : ResultCode → Nat
  | .ok => 0
  | .unknownCommand => 1
  | .badParam => 2
  | .state => 3
  | .configInvalid => 4
  | .profileInvalid => 5
  | .notReady => 6
  | .sourceActive => 7
  | .purging => 8
  | .transition => 9
  | .empty => 10

/-- R188: the kind codes. -/
def EventKind.code : EventKind → Nat
  | .breakDeclared => 1
  | .breakSuspect => 2
  | .suspectCleared => 3
  | .breakReset => 4
  | .zoneFault => 5
  | .channelFailed => 6
  | .permitDropped => 7
  | .linkLost => 8
  | .channelHi => 9
  | .channelLo => 10
  | .termChanged => 11
  | .channelStale => 12
  | .channelFresh => 13
  | .zoneHold => 14
  | .zoneResume => 15
  | .slotUnseen => 16
  | .frameBad => 17
  | .captureTriggered => 18
  | .captureFrozen => 19
  | .commitDone => 20
  | .permitRestored => 21
  | .resetDone => 22
  | .linkLocked => 23

/-- R188: the priority of a kind's class: 1 BREAK, 2 FAULT, 3 LIMIT, 4 STALE, 5 CAPTURE, 6 NOTICE. -/
def EventKind.priority : EventKind → Nat
  | .breakDeclared | .breakSuspect | .suspectCleared | .breakReset => 1
  | .zoneFault | .channelFailed | .permitDropped | .linkLost => 2
  | .channelHi | .channelLo | .termChanged => 3
  | .channelStale | .channelFresh | .zoneHold | .zoneResume | .slotUnseen | .frameBad => 4
  | .captureTriggered | .captureFrozen => 5
  | .commitDone | .permitRestored | .resetDone | .linkLocked => 6

/-! ## Condition addresses (R120) -/

/-- R120: the class code of a condition. -/
def Cond.classCode : Cond → Nat
  | .fixed _ => 0
  | .wbrkLevel | .markLevel | .permitRequest => 1
  | .linkLocked => 2
  | .speed _ => 3
  | .brk _ => 4
  | .captureFrozen => 5
  | .timer _ => 6
  | .term _ => 7
  | .zoneFault _ => 8
  | .zoneHold _ => 9
  | .chanHi _ => 10
  | .chanLo _ => 11
  | .chanFailed _ => 12
  | .chanDiscrete _ => 13

/-- R120: the index of a condition within its class. -/
def Cond.index : Cond → Nat
  | .fixed b => if b then 1 else 0
  | .wbrkLevel => 0
  | .markLevel => 1
  | .permitRequest => 2
  | .linkLocked => 0
  | .speed i => i.val
  | .brk i => i.val
  | .captureFrozen => 0
  | .timer k => k.val
  | .term j => j.val
  | .zoneFault z => z.val
  | .zoneHold z => z.val
  | .chanHi c => c.val
  | .chanLo c => c.val
  | .chanFailed c => c.val
  | .chanDiscrete c => c.val

/-- R120: a condition address in one word, the class code in bits 15..8 and the index in bits 7..0. -/
def Cond.toWord (c : Cond) : Word := BitVec.ofNat 16 (256 * c.classCode + c.index)

/-- R120: the condition that an address word names, none where the class is unknown or the index lies outside its range. -/
def Cond.ofWord (w : Word) : Option Cond :=
  let i := lowByte w
  match (highByte w).toNat with
  | 0 => if i = 0 then some (.fixed false) else if i = 1 then some (.fixed true) else none
  | 1 => if i = 0 then some .wbrkLevel else if i = 1 then some .markLevel else if i = 2 then some .permitRequest else none
  | 2 => if i = 0 then some .linkLocked else none
  | 3 => (recordIndex 6 i).map .speed
  | 4 => (recordIndex 3 i).map .brk
  | 5 => if i = 0 then some .captureFrozen else none
  | 6 => (recordIndex 6 i).map .timer
  | 7 => (recordIndex 8 i).map .term
  | 8 => (recordIndex 12 i).map .zoneFault
  | 9 => (recordIndex 12 i).map .zoneHold
  | 10 => (recordIndex 32 i).map .chanHi
  | 11 => (recordIndex 32 i).map .chanLo
  | 12 => (recordIndex 32 i).map .chanFailed
  | 13 => (recordIndex 32 i).map .chanDiscrete
  | _ => none

/-- R122: the condition is not the value of a term at or above index `j`. -/
def Cond.below (j : Fin 8) : Cond → Bool
  | .term i => decide (i < j)
  | _ => true

/-- The condition is constant: (FIXED, 0) or (FIXED, 1). -/
def Cond.isFixed : Cond → Bool
  | .fixed _ => true
  | _ => false

end Sys2Proof.Machine
end

