-- ==== Sys2Proof/Machine/Flags.lean ====
section
/-! DEFINITION. Every flag, condition and summary that the specification forms from the state: condition levels (R120), term entries
(R123), the aggregates of the bindings (R129), the break sources (R136 to R138), the permit conditions (R130), the capture flags (R166),
the event class (R189) and the status word (R10). -/

namespace Sys2Proof.Machine

/-! ## Condition levels -/

/-- R40, R41: the level that a channel offers as CHAN_DISCRETE. -/
def Channel.discreteLevel (c : Channel) : Bool :=
  c.kind == .discrete &&
    (match c.validity with
      | .none => false
      | .failed => c.failState
      | .fresh | .stale => c.value != 0)

/-- R51: the speed state that a SPEED condition names. -/
def speedStateAt (i : Fin 6) : SpeedState :=
  match i.val with
  | 0 => .unknown
  | 1 => .stopped
  | 2 => .crawl
  | 3 => .accel
  | 4 => .decel
  | _ => .steady

/-- R120: the break state that a BREAK condition names; DISARMED has none. -/
def breakStateAt (i : Fin 3) : BreakState :=
  match i.val with
  | 0 => .armed
  | 1 => .suspect
  | _ => .broken

/-- R120: the level of a condition. -/
def Device.level (d : Device) : Cond → Bool
  | .fixed b => b
  | .wbrkLevel => d.lines.wbrk == some true
  | .markLevel => d.lines.mark == some true
  | .permitRequest => d.port.permitRequest
  | .linkLocked => d.port.link == .locked
  | .speed i => d.speed.state == speedStateAt i
  | .brk i => d.monitor.state == breakStateAt i
  | .captureFrozen => d.capture.state == .frozen
  | .timer k => d.timers[k].output
  | .term j => d.terms[j].value
  | .zoneFault z => d.zones[z].mode == .fault
  | .zoneHold z => d.zones[z].mode == .hold
  | .chanHi c => d.channels[c].hiSet
  | .chanLo c => d.channels[c].loSet
  | .chanFailed c => d.channels[c].validity == .failed
  | .chanDiscrete c => d.channels[c].discreteLevel

/-! ## Terms -/

/-- R123: the index of the table entry that a term's inputs select, a + 2b + 4c + 8d. -/
def Device.entryIndex (d : Device) (t : Term) : Nat :=
  (d.level t.a).toNat + 2 * (d.level t.b).toNat + 4 * (d.level t.c).toNat + 8 * (d.level t.d).toNat

/-- R123: the table entry that a term's inputs select. -/
def Device.selected (d : Device) (t : Term) : Bool := t.table.getLsbD (d.entryIndex t)

/-- R122: the four inputs of a term. -/
def Term.inputs (t : Term) : List Cond := [t.a, t.b, t.c, t.d]

/-- The term is bound to this consumer. -/
def Device.boundTo (d : Device) (b : Binding) (j : Fin 8) : Bool := d.terms[j].binding == b

/-- R129: the lowest-numbered term of a binding whose value is the one given. -/
def Device.lowestTerm (d : Device) (b : Binding) (v : Bool) : Option (Fin 8) :=
  (List.finRange 8).find? fun j => d.boundTo b j && d.terms[j].value == v

/-- The number of that term, 0 where there is none. -/
def Device.lowestTermIndex (d : Device) (b : Binding) (v : Bool) : Nat :=
  match d.lowestTerm b v with
  | some j => j.val
  | none => 0

/-- R129: at least one term of the binding is true. -/
def Device.anyTerm (d : Device) (b : Binding) : Bool := (d.lowestTerm b true).isSome

/-- R129: every term of the binding is true; true where no term is so bound. -/
def Device.allTerms (d : Device) (b : Binding) : Bool := (d.lowestTerm b false).isNone

/-- R129: the qualifier level. -/
def Device.qualifierLevel (d : Device) : Bool := d.allTerms .fireQualifier

/-- R129: the web-present level. -/
def Device.webPresentLevel (d : Device) : Bool := d.allTerms .webPresent

/-- R82, R129: the hold demand of a zone. -/
def Device.holdDemand (d : Device) (z : Fin 12) : Bool :=
  (List.finRange 8).any fun j => d.boundTo .zoneHold j && d.terms[j].zoneMask.getLsbD z.val && d.terms[j].value

/-! ## Break sources -/

/-- R136: the WBRK source; inactive until the first acceptance of the line. -/
def Device.wbrkSource (d : Device) : Bool :=
  d.monitor.wbrkEnable && d.lines.wbrk == some d.monitor.wbrkActive

/-- R137: the token groups. -/
def Monitor.tokenGroups (m : Monitor) : Byte := (m.lastNotice ||| m.lastAssert) &&& m.membership

/-- R137: the token is active. -/
def Monitor.token (m : Monitor) : Bool := m.tokenGroups != 0

/-- R138: the hard level. -/
def Device.hardLevel (d : Device) : Bool := d.wbrkSource || d.monitor.token || d.anyTerm .hardBreak

/-- R138: the soft level. -/
def Device.softLevel (d : Device) : Bool := d.anyTerm .softBreak

/-- The lowest set bit of a byte, 0 where none is set. -/
def lowestBit (b : Byte) : Nat :=
  match (List.range 8).find? fun i => b.getLsbD i with
  | some i => i
  | none => 0

/-- R143: the cause index that goes with a cause kind at this moment. -/
def Device.causeIndex (d : Device) : BreakCause → Nat
  | .line => 0
  | .token => lowestBit d.monitor.tokenGroups
  | .hardTerm => d.lowestTermIndex .hardBreak true
  | .softTerm => d.lowestTermIndex .softBreak true
  | .command => 0

/-! ## Fire Permit -/

/-- R130: the four permit conditions. -/
def Device.permitConditions (d : Device) : Bool :=
  d.mailbox.ready && d.port.link == .locked && d.port.permitRequest && d.qualifierLevel

/-- R131, R132: the code of the first false permit condition in the order link, request, qualifier; 4 is the qualifier level. -/
def Device.permitReason (d : Device) : Nat :=
  if d.port.link != .locked then 2 else if !d.port.permitRequest then 3 else 4

/-- R130: the FPERMIT line. -/
def Device.fpermit (d : Device) : Bool := d.lines.rstn && d.permit == .asserted

/-! ## Zones -/

/-- R70. -/
def zoneKind (z : Fin 12) : ZoneKind := if z.val < 8 then .dryer else .chill

/-- The zones for which a test holds, bit z for zone Zz. -/
def Device.zoneMaskOf (d : Device) (p : Zone → Bool) : BitVec 12 :=
  (List.finRange 12).foldl (fun m z => if p d.zones[z] then m ||| BitVec.twoPow 12 z.val else m) 0

/-- R143: the mask of zones in TRACK. -/
def Device.trackMask (d : Device) : BitVec 12 := d.zoneMaskOf fun z => z.mode == .track

/-- R147: the zone is in PURGE, or in HOLD with returnMode PURGE. -/
def Zone.purging (z : Zone) : Bool := z.mode == .purge || (z.mode == .hold && z.returnMode == .purge)

/-- R10: at least one zone is in FAULT. -/
def Device.anyZoneFault (d : Device) : Bool := (List.finRange 12).any fun z => d.zones[z].mode == .fault

/-- R81: the speed state is CRAWL, ACCEL, DECEL or STEADY. -/
def SpeedState.moving : SpeedState → Bool
  | .crawl | .accel | .decel | .steady => true
  | .unknown | .stopped => false

/-! ## Slot Map -/

/-- R4: some entry holds this role. -/
def SlotMap.binds (m : SlotMap) (r : Role) : Bool :=
  m.entries.toList.any fun e => e.any fun x => x.role == r

/-- R4: the role that binds a slot. -/
def SlotMap.roleOf (m : SlotMap) (slot : Nat) : Option Role :=
  (m.entries.toList.findSome? fun e => e.filter fun x => x.slot.val == slot).map SlotEntry.role

/-! ## Capture Buffer -/

/-- R166. -/
def Capture.retained (c : Capture) : Nat := c.records.length

/-- R166, R169: 1 EMPTY, 2 HALF, 4 FULL, summed. -/
def Capture.flags (c : Capture) : Nat :=
  (if c.retained = 0 then 1 else 0) + (if Config.captureHalf ≤ c.retained then 2 else 0)
    + (if Config.captureCapacity ≤ c.retained then 4 else 0)

/-- R167: the buffer is RUNNING, WAITING or POSTFILL. -/
def CaptureState.active : CaptureState → Bool
  | .running | .waiting | .postfill => true
  | .idle | .frozen => false

/-- R172: a trigger is accepted. -/
def CaptureState.acceptsTrigger : CaptureState → Bool
  | .running | .waiting => true
  | .idle | .postfill | .frozen => false

/-- R170: a completion is recorded. -/
def CaptureState.recording : CaptureState → Bool
  | .running | .postfill => true
  | .idle | .waiting | .frozen => false

/-! ## Event Queue and status word -/

/-- R189: the priority of the highest-priority class held, 0 when the queue is empty. -/
def EventQueue.eventClass (q : EventQueue) : Nat :=
  match q.records.map (fun e => e.kind.priority) with
  | [] => 0
  | p :: ps => ps.foldl min p

/-- R1, R10: the status word as it stands. -/
def Device.statusWord (d : Device) : Word :=
  BitVec.ofNat 16 (
    d.mailbox.ready.toNat
    + 2 * d.monitor.state.code
    + 8 * (d.permit == .asserted).toNat
    + 16 * d.events.eventClass
    + 128 * d.capture.state.code
    + 1024 * d.mailbox.executing.isSome.toNat
    + 2048 * d.mailbox.pending.isSome.toNat
    + 4096 * d.events.overrun.toNat
    + 8192 * d.anyZoneFault.toNat
    + 16384 * (d.speed.state == .unknown).toNat
    + 32768 * (d.port.link == .locked).toNat)

end Sys2Proof.Machine
end

