-- ==== Sys2Proof/Machine/Ops.lean ====
section
/-! DEFINITION. The named operations that every block shares: writing one record of a table, raising events (R188), taking the next choice
(log 3), the permit's drop (R131), the settlement of the terms (R123, R124), and the marks of a waiting commit (R63, R64). -/

namespace Sys2Proof.Machine

/-! ## The outcome of a command -/

/-- The command leaves this device; the commands that wait are untouched. -/
def State.become (s : State) (d : Device) : Host.Outcome State Fault Refusal := .next { s with dev := d }

/-! ## Writing one record -/

/-- Replace a channel record. -/
def Device.setChannel (d : Device) (c : Fin 32) (x : Channel) : Device := { d with channels := d.channels.set c x }

/-- Replace a zone record. -/
def Device.setZone (d : Device) (z : Fin 12) (x : Zone) : Device := { d with zones := d.zones.set z x }

/-- Replace a timer record. -/
def Device.setTimer (d : Device) (k : Fin 6) (x : Timer) : Device := { d with timers := d.timers.set k x }

/-- Replace a term record. -/
def Device.setTerm (d : Device) (j : Fin 8) (x : Term) : Device := { d with terms := d.terms.set j x }

/-- Replace an actuator record. -/
def Device.setActuator (d : Device) (a : Fin 16) (x : Actuator) : Device := { d with actuators := d.actuators.set a x }

/-! ## Events -/

/-- R188: a record joins the newest end, or is dropped with overrun set when the queue is full. -/
def EventQueue.offer (q : EventQueue) (e : EventRecord) : EventQueue :=
  if q.records.length < Config.eventCapacity then { q with records := q.records ++ [e] } else { q with overrun := true }

/-- R14, R188: raise an event, stamped with the part cycle count as it stands. Where a completion's CYCLE clock is taken after that completion's
SOFT_RESET (R119), what it raises is so stamped 0, the count that R23 leaves, and not the count of the completion (DESIGN CHOICE, log 37). -/
def Device.raise (d : Device) (kind : EventKind) (source : Nat) (value : Word) : Device :=
  let e : EventRecord := { kind := kind, source := BitVec.ofNat 8 source, stamp := d.port.cycleCount, value := value }
  { d with events := d.events.offer e }

/-- Raise several events, in their order. -/
def Device.raiseList (d : Device) (es : List (EventKind × Nat × Word)) : Device := es.foldl (fun d e => d.raise e.1 e.2.1 e.2.2) d

/-- Raise several events of one source, in their order. -/
def Device.raiseAll (d : Device) (source : Nat) (evs : List (EventKind × Word)) : Device :=
  evs.foldl (fun d e => d.raise e.1 source e.2) d

/-! ## Choices -/

/-- The next choice among `n` possibilities (log 3): a settled choice where the schedule holds one, a free value otherwise. -/
def Device.choose (d : Device) (n : Nat) : Nat × Device :=
  match d.choices.schedule with
  | c :: rest => (c % n, { d with choices := { d.choices with schedule := rest } })
  | [] => (Config.order d.choices.used % n, { d with choices := { d.choices with used := d.choices.used + 1 } })

/-! ## The mailbox's pending result -/

/-- R178, R181: a result becomes pending and no command is executing. -/
def Device.setResult (d : Device) (code : ResultCode) (tag command : Byte) (data : List Word) : Device :=
  let r : MailResult := { code := code, tag := tag, command := command, data := dataWords data }
  { d with mailbox := { d.mailbox with executing := none, pending := some r } }

/-! ## The commit record -/

/-- R64: the commit ends and its result becomes pending; `commitDone` raises its event. -/
def Device.completeCommit (d : Device) (r : Commit) : Device :=
  let d1 := { d with profile := { d.profile with commit := none } }
  match d1.mailbox.executing with
  | some x => d1.setResult .ok x.tag x.code [r.marked.setWidth 16, r.rebased.setWidth 16, r.released.setWidth 16]
  | none => d1

/-- R64: COMMIT_DONE as it is raised for this record: kind, source index and value. -/
def Commit.done (r : Commit) : EventKind × Nat × Word := (.commitDone, 0, r.rebased.setWidth 16)

/-- Raise an event where there is one. -/
def Device.raiseOption (d : Device) (e : Option (EventKind × Nat × Word)) : Device :=
  match e with
  | some x => d.raise x.1 x.2.1 x.2.2
  | none => d

/-- R188: two blocks raise an event at the same moment: either is offered first (log 3); with only one event there is no choice. -/
def Device.raiseEither (d : Device) (other : Option (EventKind × Nat × Word)) (e : EventKind × Nat × Word) : Device :=
  match other with
  | none => d.raiseOption (some e)
  | some x =>
    let r := d.choose 2
    if r.1 = 0 then (r.2.raiseOption (some x)).raiseOption (some e) else (r.2.raiseOption (some e)).raiseOption (some x)

/-- R63: the commit record after a zone's mark has been cleared, by its rebase or by its leaving TRACK. -/
def Commit.cleared (r : Commit) (z : Fin 12) (rebase : Bool) : Commit :=
  if rebase then { r with rebased := r.rebased ||| BitVec.twoPow 12 z.val }
  else { r with released := r.released ||| BitVec.twoPow 12 z.val }

/-- R64: some zone of the marked mask lies neither in the rebased nor in the released mask. -/
def Commit.waits (r : Commit) : Bool := r.marked &&& ~~~(r.rebased ||| r.released) != 0

/-- R63: a zone's bumpless mark is cleared and entered in the commit record, as a rebase or as a release; R64: where it was the last
mark, the commit completes, and the answer holds the COMMIT_DONE that is then to be raised. A zone without a mark is left as it is. -/
def Device.clearMark (d : Device) (z : Fin 12) (rebase : Bool) : Device × Option (EventKind × Nat × Word) :=
  if d.zones[z].bumpless then
    let d1 := d.setZone z { d.zones[z] with bumpless := false }
    match d1.profile.commit with
    | none => (d1, none)
    | some r =>
      let r1 := r.cleared z rebase
      if r1.waits then ({ d1 with profile := { d1.profile with commit := some r1 } }, none) else (d1.completeCommit r1, some r1.done)
  else (d, none)

/-- R63, R64: a mark is cleared, and COMMIT_DONE is the one event that this can raise. -/
def Device.endMark (d : Device) (z : Fin 12) (rebase : Bool) : Device :=
  let r := d.clearMark z rebase
  r.1.raiseOption r.2

/-! ## Fire Permit -/

/-- R131: an ASSERTED permit stands over a permit condition that is false. -/
def Device.permitFails (d : Device) : Bool := d.permit == .asserted && !d.permitConditions

/-- R131: an ASSERTED permit drops at the moment a permit condition is false. -/
def Device.dropPermit (d : Device) : Device := if d.permitFails then { d with permit := .dropped } else d

/-- R131: the source index and the value of the PERMIT_DROPPED that the drop raises. -/
def Device.permitDrop (d : Device) : Nat × Nat :=
  (if d.permitReason = 4 then d.lowestTermIndex .fireQualifier false else 0, d.permitReason)

/-- R131: the PERMIT_DROPPED that the drop raises. -/
def Device.permitEvent (d : Device) : EventKind × Nat × Word := (.permitDropped, d.permitDrop.1, natWord d.permitDrop.2)

/-! ## Settlement of the terms -/

/-- One bit for each term. -/
abbrev TermSet := BitVec 8

/-- The set holding one term. -/
def TermSet.one (j : Fin 8) : TermSet := BitVec.twoPow 8 j.val

/-- The terms whose value differs between two states. -/
def changedTerms (d0 d : Device) : TermSet :=
  (List.finRange 8).foldl (fun m j => if d0.terms[j].value != d.terms[j].value then m ||| TermSet.one j else m) 0

/-- R125: a term takes a new value, with its TERM_CHANGED where its flag is on. -/
def Device.changeTerm (d : Device) (j : Fin 8) (v : Bool) : Device :=
  let d1 := d.setTerm j { d.terms[j] with value := v }
  if d.terms[j].eventFlag then d1.raise .termChanged j.val (boolWord v) else d1

/-- R123, R124: one term in a settlement. `d0` is the state before the change being settled; `p` holds the state reached and the terms
that have changed in this cascade. -/
def settleTerm (d0 : Device) (p : Device × TermSet) (j : Fin 8) : Device × TermSet :=
  let d := p.1
  let t := d.terms[j]
  if t.inputs.any fun c => d0.level c != d.level c then
    let v := d.selected t
    if v = t.value then p
    else if p.2.getLsbD j.val then (d.setTerm j { t with deferred := true }, p.2)
    else (d.changeTerm j v, p.2 ||| TermSet.one j)
  else p

/-- R123: the terms settle in ascending index after the change from `d0` to `d`. -/
def settle (d0 d : Device) (changed : TermSet) : Device × TermSet :=
  (List.finRange 8).foldl (settleTerm d0) (d, changed)

/-- R125: the TERM_CHANGED events that tell of the change of the terms from `d0` to `d`, in ascending index. -/
def termEvents (d0 d : Device) : List (EventKind × Nat × Word) :=
  ((List.finRange 8).filter fun j => d.terms[j].eventFlag && d0.terms[j].value != d.terms[j].value).map fun j =>
    (.termChanged, j.val, boolWord d.terms[j].value)

/-- R188: the `n`-th event of the change from `d0` to `d` is preceded by PERMIT_DROPPED: `d` is the state before the terms settle, or `d0` where
the change is a term's own, and `d1` is the state afterwards, whose events are raised anew. -/
def Device.dropAmongTerms (d0 d d1 : Device) (n : Nat) : Device :=
  let before := if changedTerms d0 d = 0 then d.events else d0.events
  let es := termEvents d0 d1
  ({ d1.dropPermit with events := before } : Device).raiseList (es.take n ++ d1.permitEvent :: es.drop n)

/-- R123, R187: at SOFT_RESET each term takes the entry that its inputs select, in ascending index, and raises nothing. -/
def settleAtReset (d : Device) : Device :=
  (List.finRange 8).foldl (fun d j => d.setTerm j { d.terms[j] with value := d.selected d.terms[j], deferred := false }) d

end Sys2Proof.Machine
end

