-- ==== Sys2Proof/Machine/CaptureBuffer.lean ====
section
/-! DEFINITION. The Capture Buffer (chapter 10): recording (R170, R171), triggers (R172), control (R174), readout (R176, R177) and the
configuration records (R167 to R169). -/

namespace Sys2Proof.Machine

/-- R171: a record joins the newest end; where 512 are retained the oldest leaves first. -/
def pushRecord (rs : List CaptureRecord) (r : CaptureRecord) : List CaptureRecord :=
  (if rs.length < Config.captureCapacity then rs else rs.drop 1) ++ [r]

/-- R166: the record that the device makes at a completion of this goodness. -/
def Device.makeRecord (d : Device) (good : Bool) : CaptureRecord :=
  { stamp := d.port.cycleCount
    good := good
    lead := d.speed.lead
    breakState := d.monitor.state
    mark := d.capture.state == .postfill && d.capture.markOwed
    entries := d.capture.channels.map fun c => (d.channels[c].filtered, d.channels[c].validity) }

/-- R170: the decimation counter after a completion. -/
def Capture.nextCounter (c : Capture) : Nat := if c.decimation ≤ c.counter + 1 then 0 else c.counter + 1

/-- R171: the buffer with a record added, before the freeze is judged. -/
def Capture.add (c : Capture) (r : CaptureRecord) : Capture :=
  { c with
    records := pushRecord c.records r
    markOwed := if c.state = .postfill then false else c.markOwed
    countdown := if c.state = .postfill ∧ c.mode = .window then c.countdown - 1 else c.countdown }

/-- R171: after an addition in POSTFILL the buffer freezes: POST at 512 records, WINDOW at the end of its countdown. The number is the
source index of CAPTURE_FROZEN. -/
def Capture.freezeSource (c : Capture) : Option Nat :=
  if c.state ≠ .postfill then none
  else match c.mode with
    | .post => if Config.captureCapacity ≤ c.retained then some 2 else none
    | .window => if c.countdown = 0 then some 3 else none
    | .pre => none

/-- R170, R171: a completion at the Capture Buffer. -/
def Device.recordCompletion (d : Device) (good : Bool) : Device :=
  if d.capture.state.recording then
    if d.capture.counter = 0 then
      let c1 := d.capture.add (d.makeRecord good)
      let c2 := { c1 with counter := d.capture.nextCounter }
      match c1.freezeSource with
      | some src =>
        ({ d with capture := { c2 with state := .frozen } }).raise .captureFrozen src (natWord c2.retained)
      | none => { d with capture := c2 }
    else { d with capture := { d.capture with counter := d.capture.nextCounter } }
  else d

/-- R168, R172: a pending post-count latch is loaded. -/
def Capture.loadLatch (c : Capture) : Capture :=
  if c.latchPending then { c with postCount := c.latchP, latchPending := false } else c

/-- R172: the effect of an accepted trigger by mode. -/
def Capture.triggered (c : Capture) : Capture :=
  match c.mode with
  | .pre => { c with state := .frozen }
  | .post => { c with state := .postfill, counter := 0, markOwed := true }
  | .window => { c with state := .postfill, countdown := c.postCount, counter := 0, markOwed := true }

/-- R172: a trigger from this source index; ignored in IDLE, POSTFILL and FROZEN. -/
def Device.captureTrigger (d : Device) (source : Nat) : Device :=
  if d.capture.state.acceptsTrigger then
    let c := d.capture.loadLatch.triggered
    let d1 := ({ d with capture := c }).raise .captureTriggered source (natWord c.retained)
    if c.mode = .pre then d1.raise .captureFrozen 1 (natWord c.retained) else d1
  else d

/-- R174: the record list emptied. -/
def Capture.emptied (c : Capture) : Capture :=
  { c with records := [], position := 0, counter := 0, countdown := 0, markOwed := false }

/-- R174: START. -/
def Capture.started (c : Capture) : Capture :=
  { c.emptied with state := if c.mode = .post then .waiting else .running }

/-- R174: STOP. -/
def Device.captureStop (d : Device) : Device :=
  ({ d with capture := { d.capture with state := .frozen, markOwed := false, countdown := 0 } }).raise .captureFrozen 4
    (natWord d.capture.retained)

/-- R165: the buffer at SOFT_RESET. -/
def Capture.softReset (c : Capture) : Capture :=
  let c1 := c.loadLatch
  { c1 with
    latchP := c1.postCount, state := if c.records = [] then .idle else .frozen
    position := 0, counter := 0, countdown := 0, markOwed := false, lastRequest := false }

/-- R174: the result words of a CAPTURE_CONTROL. -/
def Capture.controlWords (c : Capture) : List Word := [natWord c.state.code, natWord c.retained, natWord c.flags]

/-- R176: the words of a record. -/
def CaptureRecord.words (r : CaptureRecord) : List Word :=
  let validities := (r.entries.take 8).foldr (fun e acc => e.2.code + 4 * acc) 0
  [highHalf r.stamp, lowHalf r.stamp, toWord r.lead,
    natWord (r.breakState.code + 4 * r.mark.toNat + 8 * r.good.toNat + 16 * (r.entries.take 8).length),
    natWord validities] ++ (r.entries.take 8).map fun e => toWord e.1

/-- R167: the channel bytes of the packed words P4..P7, entry 2j in the low byte of P(4+j). -/
def packedBytes (packed : Vector Word 4) : List Byte := packed.toList.flatMap fun w => [lowByte w, highByte w]

/-- R167: the listed channels, none where one lies above 31 or appears twice or their number lies outside 1..8. -/
def captureList (count : Word) (packed : Vector Word 4) : Option (List (Fin 32)) :=
  if count.toNat < 1 ∨ 8 < count.toNat then none
  else match ((packedBytes packed).take count.toNat).mapM (recordIndex 32) with
    | some cs => if cs.Nodup then some cs else none
    | none => none

/-- R169: the channel list packed as R167 writes it. -/
def packChannels (cs : List (Fin 32)) : List Word :=
  (List.range 4).map fun j =>
    let byte := fun i => match cs[i]? with
      | some c => BitVec.ofNat 8 c.val
      | none => 0
    packBytes (byte (2 * j + 1)) (byte (2 * j))

/-- R169: record 0. -/
def Capture.configWords (c : Capture) : List Word :=
  [natWord c.mode.code, natWord c.decimation, natWord c.channels.length] ++ packChannels c.channels

/-- R169: record 1. -/
def Capture.postWords (c : Capture) : List Word := [natWord c.postCount, boolWord c.latchPending, natWord c.latchP]

/-- R169: record 2. -/
def Capture.stateWords (c : Capture) : List Word :=
  let newest := match c.records.getLast? with
    | some r => r.stamp
    | none => 0
  [natWord c.state.code, natWord c.retained, natWord c.position, natWord c.counter, natWord c.countdown, natWord c.flags,
    boolWord c.lastRequest, highHalf newest, lowHalf newest]

end Sys2Proof.Machine
end

