-- ==== Sys2Proof/Machine/Channel.lean ====
section
/-! DEFINITION. Input channels (chapter 2): taking a sample (R29 to R35), ageing (R37), the failed state (R40) and the two parts of a
record's write (R26, R27). An event is given as its kind and value; its source index is the channel number (R39). -/

namespace Sys2Proof.Machine

/-- A channel after a change, with the events that the change raises in the order of R39. -/
abbrev ChannelChange := Channel × List (EventKind × Word)

/-- R34, R40: both comparators take these levels; a change of either raises its event where it is enabled. -/
def Channel.takeComparators (c : Channel) (hi lo : Bool) : ChannelChange :=
  ({ c with hiSet := hi, loSet := lo },
    (if c.hiSet != hi && c.enableHi then [(.channelHi, boolWord hi)] else [])
      ++ (if c.loSet != lo && c.enableLo then [(.channelLo, boolWord lo)] else []))

/-- R40: the comparator levels of a FAILED channel; a DISCRETE channel has no comparators (R35). -/
def Channel.failLevel (c : Channel) : Bool := c.kind != .discrete && c.failState

/-- R30, R37, R40: the channel becomes FAILED, for the cause 1 (sensor-fault code) or 2 (failLimit); a FAILED channel is unchanged. -/
def Channel.fail (c : Channel) (cause : Word) : ChannelChange :=
  if c.validity = .failed then (c, [])
  else
    let r := { c with validity := .failed }.takeComparators c.failLevel c.failLevel
    (r.1, (.channelFailed, cause) :: r.2)

/-- R31: the value of a raw word before the clamp. -/
def Channel.scale (c : Channel) (raw : Int) : Int := (raw * c.gain).tdiv 4096 + c.offset

/-- R32: the first sample after NONE or FAILED seeds the filter. -/
def Channel.seeds (c : Channel) : Bool := c.validity == .none || c.validity == .failed

/-- R32: the filter output for a new value. -/
def Channel.filter (c : Channel) (value : Int) : Int :=
  if c.seeds then value else c.filtered + ((value - c.filtered) * c.alpha).tdiv 256

/-- R33: the event of a return to FRESH. -/
def Channel.freshEvents (c : Channel) : List (EventKind × Word) :=
  match c.validity with
  | .stale => if c.enableStale then [(.channelFresh, 2)] else []
  | .failed => [(.channelFresh, 3)]
  | .none | .fresh => []

/-- R34: HI on a new filtered value: afresh where the sample seeded the filter, otherwise with hysteresis. -/
def Channel.nextHi (c : Channel) (filtered : Int) : Bool :=
  if c.hiLimit ≤ filtered then true
  else if c.seeds || decide (filtered < c.hiLimit - c.hyst) then false
  else c.hiSet

/-- R34: LO on a new filtered value. -/
def Channel.nextLo (c : Channel) (filtered : Int) : Bool :=
  if filtered ≤ c.loLimit then true
  else if c.seeds || decide (c.loLimit + c.hyst < filtered) then false
  else c.loSet

/-- R31 to R34: a non-fault sample on a channel of kind TEMP, SPEED or PERCENT. -/
def Channel.takeAnalog (c : Channel) (raw : Int) : ChannelChange :=
  let unclamped := c.scale raw
  let value := clamp c.lo c.hi unclamped
  let filtered := c.filter value
  let c1 := { c with
    raw := raw, value := value, limited := value != unclamped, filtered := filtered, age := 0, validity := .fresh }
  let r := c1.takeComparators (c.nextHi filtered) (c.nextLo filtered)
  (r.1, c.freshEvents ++ r.2)

/-- R35: a non-fault sample on a DISCRETE channel. -/
def Channel.takeDiscrete (c : Channel) (raw : Int) : ChannelChange :=
  let value : Int := if raw = 0 then 0 else 1
  ({ c with
      raw := raw, value := value, filtered := value, limited := false, age := 0, validity := .fresh
      hiSet := false, loSet := false },
    c.freshEvents)

/-- R1 Note 2: the sensors' fault code, −32768. -/
def sensorFault : Word := 0x8000

/-- R29: a channel takes a staged raw word. -/
def Channel.takeSample (c : Channel) (w : Word) : ChannelChange :=
  if w = sensorFault then { c with raw := signed w }.fail 1
  else if c.kind = .discrete then c.takeDiscrete (signed w)
  else c.takeAnalog (signed w)

/-- R37: one tick at a channel: its age, then STALE, then FAILED. With staleLimit 1 a tick that finds age 0 brings the channel to STALE, as R37
and R49 say; R50's "the tracker is unaffected" is not followed there (DEDUCED, log 34). -/
def Channel.tick (c : Channel) : ChannelChange :=
  if c.validity = .none then (c, [])
  else
    let c1 := { c with age := min 65535 (c.age + 1) }
    let stale := c1.validity = .fresh ∧ c1.staleLimit ≤ c1.age
    let c2 := if stale then { c1 with validity := .stale } else c1
    let ev := if stale ∧ c1.enableStale then [(.channelStale, toWord c1.filtered)] else []
    if c2.validity ≠ .failed ∧ c2.failLimit ≤ c2.age then
      let r := c2.fail 2
      (r.1, ev ++ r.2)
    else (c2, ev)

/-- R37: the validities that a tick brings the channel through, in order. -/
def Channel.tickValidities (c : Channel) : List Validity :=
  let after := c.tick.1.validity
  if c.validity = after then []
  else if c.validity = .fresh ∧ after = .failed ∧ c.staleLimit ≤ min 65535 (c.age + 1) then [.stale, .failed]
  else [after]

/-- R26: a limit brought into the limits of a kind; DISCRETE has none. -/
def ChannelKind.limit (k : ChannelKind) (x : Int) : Int :=
  match k.limits with
  | some (lo, hi) => clamp lo hi x
  | none => x

/-- R26: the SCALE fields are in range for the kind written. -/
def scaleInRange (k : ChannelKind) (gain offset lo hi alpha : Int) : Bool :=
  match k.limits with
  | none => true
  | some (kl, kh) =>
    inRange (-32767) 32767 gain && inRange (-32767) 32767 offset && inRange 1 256 alpha
      && inRange kl kh lo && inRange kl kh hi && decide (lo ≤ hi)

/-- R26: an accepted SCALE write; for DISCRETE the other five fields keep the record's values. -/
def Channel.writeScale (c : Channel) (k : ChannelKind) (gain offset lo hi alpha : Int) : Channel :=
  let c1 := if k = .discrete then { c with kind := k }
    else { c with kind := k, gain := gain, offset := offset, lo := lo, hi := hi, alpha := alpha }
  if c.kind = k then c1
  else
    { c1 with
      hiLimit := k.limit c.hiLimit, loLimit := k.limit c.loLimit
      validity := .none, value := 0, filtered := 0, age := 0, hiSet := false, loSet := false, limited := false }

/-- R27: the LIMITS fields are in range for the record's kind. -/
def Channel.limitsInRange (c : Channel) (stale fail hiLimit loLimit hyst : Int) : Bool :=
  inRange 1 65535 stale && inRange 1 65535 fail && decide (stale ≤ fail) && decide (hyst ≤ 500)
    && (match c.kind.limits with
        | some (kl, kh) => inRange kl kh hiLimit && inRange kl kh loLimit
        | none => true)

/-- R27, R40: an accepted LIMITS write; a new failState acts at once on a FAILED channel. The events that this raises are governed by the
enables as written: R27 speaks only of events raised after the write (DESIGN CHOICE, log 35). -/
def Channel.writeLimits (c : Channel) (stale fail : Nat) (hiLimit loLimit hyst : Int) (failState : Bool) (enables : Word) :
    ChannelChange :=
  let c1 := { c with
    staleLimit := stale, failLimit := fail, hiLimit := hiLimit, loLimit := loLimit, hyst := hyst, failState := failState
    enableHi := enables.getLsbD 0, enableLo := enables.getLsbD 1, enableStale := enables.getLsbD 2 }
  if c.validity = .failed ∧ c.failState ≠ failState then c1.takeComparators c1.failLevel c1.failLevel else (c1, [])

/-- R28, R184: the fields of a channel part, in the order of R26 or R27. -/
def Channel.scaleWords (c : Channel) : List Word :=
  [natWord c.kind.code, toWord c.gain, toWord c.offset, toWord c.lo, toWord c.hi, toWord c.alpha]

/-- R28, R184. -/
def Channel.limitsWords (c : Channel) : List Word :=
  [natWord c.staleLimit, natWord c.failLimit, toWord c.hiLimit, toWord c.loLimit, toWord c.hyst, boolWord c.failState,
    natWord (c.enableHi.toNat + 2 * c.enableLo.toNat + 4 * c.enableStale.toNat)]

/-- R28: CHANNEL_STATE. -/
def Channel.stateWords (c : Channel) : List Word :=
  [toWord c.raw, toWord c.value, toWord c.filtered, natWord c.age, natWord c.validity.code, boolWord c.hiSet, boolWord c.loSet,
    boolWord c.limited, boolWord c.discreteLevel]

end Sys2Proof.Machine
end

