-- ==== Sys2Proof/Machine/Actuators.lean ====
section
/-! DEFINITION. Actuator channels (chapter 9): the source value (R153), the source advance (R154), the break actions (R158), a slot passing
(R155, R159), the unseen signal (R156) and the break phases (R157, R160). -/

namespace Sys2Proof.Machine

/-- R153: the source value as it stands. -/
def Device.sourceValue (d : Device) (a : Actuator) : Int :=
  match a.source with
  | .fixed => a.fixedValue
  | .zone z => d.zones[z].u
  | .term j => if d.terms[j].value then a.onValue else a.offValue

/-- R154: the source follows a zone exactly. -/
def Actuator.followsZone (a : Actuator) : Bool := a.source.kind == .zone && !a.converging

/-- R154: the source advance with source value `s`. -/
def Actuator.sourceAdvance (a : Actuator) (s : Int) : Actuator :=
  let v := if a.followsZone then s else moveToward a.slewMax s a.value
  { a with value := v, converging := if v = s then false else a.converging }

/-- R158: the break action of an ACTING actuator. -/
def Actuator.breakAdvance (a : Actuator) (s : Int) : Actuator :=
  match a.action with
  | .follow => a.sourceAdvance s
  | .hold => a
  | .force => { a with value := a.actionValue }
  | .ramp => { a with value := moveToward a.step a.actionValue a.value }

/-- R159: a passing counted in DELAYING. -/
def Actuator.countPassing (a : Actuator) : Actuator :=
  if 1 < a.countdown then { a with countdown := a.countdown - 1 } else { a with countdown := 0, phase := .acting }

/-- R155: one slot passing with source value `s`. -/
def Actuator.pass (a : Actuator) (s : Int) : Actuator :=
  let a1 := { a with unseen := false }
  match a.phase with
  | .none => a1.sourceAdvance s
  | .delaying => (a1.sourceAdvance s).countPassing
  | .acting => a1.breakAdvance s

/-- R155: a slot passing at an actuator of the device. -/
def Device.passActuator (d : Device) (a : Fin 16) : Device :=
  d.setActuator a (d.actuators[a].pass (d.sourceValue d.actuators[a]))

/-- R156: the unseen signal of a frame with slot count `n`. -/
def Device.signalUnseen (d : Device) (n : Nat) (a : Fin 16) : Device :=
  let x := d.actuators[a]
  if x.unseen then d else (d.setActuator a { x with unseen := true }).raise .slotUnseen a.val (natWord n)

/-- R157: an actuator in NONE enters its break phase. -/
def Actuator.enterBreak (a : Actuator) : Actuator :=
  if a.phase ≠ .none then a
  else if a.delay = 0 then { a with phase := .acting, countdown := 0 }
  else { a with phase := .delaying, countdown := a.delay }

/-- R160: an actuator ends its break phase. -/
def Actuator.endBreak (a : Actuator) : Actuator :=
  match a.phase with
  | .none => a
  | .delaying => { a with phase := .none, countdown := 0 }
  | .acting => { a with phase := .none, converging := true }

/-- R152: an actuator at SOFT_RESET. -/
def Actuator.softReset (a : Actuator) : Actuator :=
  { a with value := 0, phase := .none, countdown := 0, converging := false, unseen := false }

/-- R162: the SOURCE fields beside kind and index are in range. -/
def sourceFieldsInRange (fixedValue onValue offValue slewMax : Int) : Bool :=
  inRange 0 10000 fixedValue && inRange 0 10000 onValue && inRange 0 10000 offValue && inRange 1 10000 slewMax

/-- R162: an accepted SOURCE write. -/
def Actuator.writeSource (a : Actuator) (source : Source) (fixedValue onValue offValue slewMax : Int) : Actuator :=
  { a with
    source := source, fixedValue := fixedValue, onValue := onValue, offValue := offValue, slewMax := slewMax
    converging := if a.source = source then a.converging else true }

/-- R162: the BREAK fields beside the action are in range. -/
def breakFieldsInRange (actionValue step delay : Int) : Bool :=
  inRange 0 10000 actionValue && inRange 1 10000 step && inRange 0 255 delay

/-- R162: an accepted BREAK write. -/
def Actuator.writeBreak (a : Actuator) (action : BreakAction) (actionValue step : Int) (delay : Nat) : Actuator :=
  { a with action := action, actionValue := actionValue, step := step, delay := delay }

/-- R162: the result of a write: the value and the phase code. -/
def Actuator.writeWords (a : Actuator) : List Word := [toWord a.value, natWord a.phase.code]

/-- R163, R184. -/
def Actuator.sourceWords (a : Actuator) : List Word :=
  [natWord a.source.kind.code, natWord a.source.index, toWord a.fixedValue, toWord a.onValue, toWord a.offValue, toWord a.slewMax]

/-- R163, R184. -/
def Actuator.breakWords (a : Actuator) : List Word :=
  [natWord a.action.code, toWord a.actionValue, toWord a.step, natWord a.delay]

/-- R163: the part STATE. -/
def Device.actuatorStateWords (d : Device) (a : Fin 16) : List Word :=
  let x := d.actuators[a]
  [toWord x.value, natWord x.phase.code, natWord x.countdown, boolWord x.converging, boolWord x.unseen, toWord (d.sourceValue x),
    boolWord (d.slotMap.binds (.output a))]

end Sys2Proof.Machine
end

