-- ==== Sys2Proof/Machine/Profile.lean ====
section
/-! DEFINITION. The Profile Store (chapter 4): loading SHADOW (R56, R57), reading a bank (R58), validating and committing (R59 to R62) and the
lookup (R67, R68). -/

namespace Sys2Proof.Machine

/-! ## Lookup -/

/-- R54: the breakpoints of a curve: its entries below its length. -/
def Curve.points (c : Curve) : List Breakpoint := c.entries.toList.take c.length

/-- R68: the value at speed `l` on the segment that starts at speed `s0` with `x0` and ends at `s1` with `x1`. -/
def interpolate (s0 s1 x0 x1 l : Int) : Int := x0 + ((x1 - x0) * (l - s0)).tdiv (s1 - s0)

/-- R67, case 3 and case 2: the segment that holds `l`, or the last breakpoint, from a breakpoint whose speed does not exceed `l`. -/
def lookupFrom (p : Breakpoint) (rest : List Breakpoint) (l : Int) : Int × Int :=
  match rest with
  | [] => (p.setpoint, p.feedforward)
  | q :: rest =>
    if l < q.speed then
      (interpolate p.speed q.speed p.setpoint q.setpoint l, interpolate p.speed q.speed p.feedforward q.feedforward l)
    else lookupFrom q rest l

/-- R67: target and feedforward at the lead speed. A TRACK zone's curve is never empty (R94); an empty one gives 0 (log 10). -/
def Curve.lookup (c : Curve) (l : Int) : Int × Int :=
  match c.points with
  | [] => (0, 0)
  | p :: rest => if l ≤ p.speed then (p.setpoint, p.feedforward) else lookupFrom p rest l

/-! ## Loading -/

/-- R56: a breakpoint is in range. -/
def Breakpoint.valid (p : Breakpoint) : Bool :=
  inRange 0 1500 p.speed && inRange (-500) 4500 p.setpoint && inRange 0 10000 p.feedforward

/-- R183: breakpoint `j` of the nine words P1..P9. -/
def profilePoint (points : Vector Word 9) (j : Nat) : Breakpoint :=
  let at' := fun i => points.toList.getD (3 * j + i) 0
  { speed := unsigned (at' 0), setpoint := signed (at' 1), feedforward := unsigned (at' 2) }

/-- R183: the fields of the packed header. -/
def headerCurve (h : Word) : Nat := (h.extractLsb' 0 4).toNat

/-- R183. -/
def headerFirst (h : Word) : Nat := (h.extractLsb' 4 4).toNat

/-- R183. -/
def headerCount (h : Word) : Nat := (h.extractLsb' 8 3).toNat

/-- R183: 31 is KEEP. -/
def headerLength (h : Word) : Nat := (h.extractLsb' 11 5).toNat

/-- R56: the checks of a WRITE_PROFILE. -/
def profileAccepted (h : Word) (points : Vector Word 9) : Bool :=
  decide (headerCurve h ≤ 11) && decide (headerCount h ≤ 3) && decide (headerFirst h + headerCount h ≤ 16)
    && (decide (headerLength h ≤ 16) || headerLength h == 31)
    && (List.range (headerCount h)).all fun j => (profilePoint points j).valid

/-- R57: breakpoint j goes to entry first + j, then the length is set unless it is KEEP. -/
def Curve.write (c : Curve) (first count length : Nat) (point : Nat → Breakpoint) : Curve :=
  let entries := (List.range count).foldl (fun es j => es.setIfInBounds (first + j) (point j)) c.entries
  { length := if length = 31 then c.length else length, entries := entries }

/-- R58: the words of a bank read. -/
def Curve.words (c : Curve) (first : Nat) : List Word :=
  natWord c.length :: (List.range 4).flatMap fun i =>
    match c.entries.toList[first + i]? with
    | some p => [toWord p.speed, toWord p.setpoint, toWord p.feedforward]
    | none => [0, 0, 0]

/-! ## Committing -/

/-- R59: the kinds of fault that a commit reports. -/
inductive CurveFault where
  | short
  | order
  | emptyInTrack
  deriving DecidableEq, Repr

/-- R59. -/
def CurveFault.code : CurveFault → Nat
  | .short => 1
  | .order => 2
  | .emptyInTrack => 3

/-- R59: the index of the first breakpoint whose speed does not exceed its predecessor's; `i` is the index of the list's second one. -/
def firstDisorder (ps : List Breakpoint) (i : Nat) : Option Nat :=
  match ps with
  | p :: q :: rest => if q.speed ≤ p.speed then some i else firstDisorder (q :: rest) (i + 1)
  | _ => none

/-- R59, R60: the first fault of one curve, with its entry index; `tracked` says that the curve's zone is in TRACK or in HOLD for TRACK. -/
def Curve.fault (c : Curve) (tracked : Bool) : Option (Nat × CurveFault) :=
  if c.length = 0 then (if tracked then some (0, .emptyInTrack) else none)
  else if c.length = 1 then some (1, .short)
  else (firstDisorder c.points 1).map fun i => (i, .order)

/-- R54: a valid curve. -/
def Curve.isValid (c : Curve) : Bool := c.length == 0 || (decide (2 ≤ c.length) && decide (c.length ≤ 16) && (firstDisorder c.points 1).isNone)

/-- R60: the zone is in TRACK, or in HOLD with return mode TRACK. -/
def Zone.needsCurve (z : Zone) : Bool := z.mode == .track || (z.mode == .hold && z.returnMode == .track)

/-- R59: the first fault of the SHADOW bank in ascending curve order. -/
def Device.profileFault (d : Device) : Option (Fin 12 × Nat × CurveFault) :=
  (List.finRange 12).findSome? fun c =>
    (d.profile.shadow[c].fault d.zones[c].needsCurve).map fun f => (c, f.1, f.2)

/-- R61, R62: the copy; then every zone in TRACK is marked. The commit waits as the executing command, or completes at once where no zone
was marked (R64). -/
def Device.commitCopy (d : Device) (tag : Byte) : Device :=
  let marked := d.trackMask
  let r : Commit := { marked := marked }
  let d1 := { d with
    profile := { d.profile with active := d.profile.shadow, commit := some r }
    zones := d.zones.map fun z => if z.mode = .track then { z with bumpless := true } else z
    mailbox := { d.mailbox with executing := some { code := 6, tag := tag } } }
  if marked = 0 then (d1.completeCommit r).raiseOption (some r.done) else d1

end Sys2Proof.Machine
end

