-- ==== Sys2Proof/Machine/Zone.lean ====
section
/-! DEFINITION. Zone control (chapter 5): the entries into the modes (R76, R77, R82, R84, R86, R88, R89), the zone update step by step
(R92 to R101), the purge tick (R89) and the record's writes (R72 to R74). -/

namespace Sys2Proof.Machine

/-! ## Entering a mode: the record alone -/

/-- R76: the values of OFF. -/
def Zone.toOff (z : Zone) : Zone :=
  { z with mode := .off, u := 0, i := 0, limitDir := .none, purgeCount := 0, faultDeferred := false, returnMode := .none }

/-- R76, R86: the values of FAULT. -/
def Zone.toFault (z : Zone) : Zone :=
  { z with
    mode := .fault, u := z.faultOutput, i := 0, limitDir := .none, purgeCount := 0, faultDeferred := false, returnMode := .none }

/-- R89: the values of PURGE. -/
def Zone.toPurge (z : Zone) : Zone :=
  { z with
    mode := .purge, u := z.purgeOutput, i := 0, limitDir := .none, purgeCount := z.purgeTime, faultDeferred := false
    returnMode := .none }

/-- R82: the values of HOLD, for a return to `r`; U, W, I and limitDir are frozen. -/
def Zone.toHold (z : Zone) (r : ReturnMode) : Zone := { z with mode := .hold, returnMode := r }

/-- R77: the seeding, with the filtered value of the measurement channel. -/
def Zone.seed (z : Zone) (m : Int) : Zone := { z with w := clamp z.spMin z.spMax m, i := 0, limitDir := .none }

/-- R84: the mode that a HOLD zone returns to. -/
def ReturnMode.mode : ReturnMode → Option Mode
  | .none => Option.none
  | .preheat => some .preheat
  | .track => some .track
  | .purge => some .purge

/-- R82: the return mode for a mode that HOLD is entered from. -/
def Mode.asReturn : Mode → ReturnMode
  | .preheat => .preheat
  | .track => .track
  | .purge => .purge
  | .off | .hold | .fault => .none

/-! ## Entering a mode: the device -/

/-- R63, R86: a zone enters FAULT with this ZONE_FAULT value; a bumpless mark is released. Where that completes a commit (R64), the Profile
Store's COMMIT_DONE and the zone's event are raised in either order (R188, log 3). -/
def Device.faultZone (d : Device) (z : Fin 12) (cause : Word) : Device :=
  let r := d.clearMark z false
  (r.1.setZone z r.1.zones[z].toFault).raiseEither r.2 (.zoneFault, z.val, cause)

/-- R63, R82: a zone enters HOLD with this ZONE_HOLD value; a bumpless mark is released, with the events as for FAULT. -/
def Device.holdZone (d : Device) (z : Fin 12) (cause : Word) : Device :=
  let r := d.clearMark z false
  (r.1.setZone z (r.1.zones[z].toHold r.1.zones[z].mode.asReturn)).raiseEither r.2 (.zoneHold, z.val, cause)

/-- R63, R88, R89: a zone enters PURGE; a bumpless mark is released. -/
def Device.purgeZone (d : Device) (z : Fin 12) : Device :=
  let d1 := d.endMark z false
  d1.setZone z d1.zones[z].toPurge

/-- R84: a zone leaves HOLD for its return mode. -/
def Device.resumeZone (d : Device) (z : Fin 12) : Device :=
  let zone := d.zones[z]
  match zone.returnMode.mode with
  | none => d
  | some .purge => (d.setZone z zone.toPurge).raise .zoneResume z.val (natWord Mode.purge.code)
  | some m => (d.setZone z { zone with mode := m, returnMode := .none }).raise .zoneResume z.val (natWord m.code)

/-- The measurement channel of a zone. -/
def Device.measured (d : Device) (z : Fin 12) : Channel := d.channels[d.zones[z].measChannel]

/-- R77: the entry check of a zone that has entered PREHEAT or TRACK. -/
def Device.entryCheck (d : Device) (z : Fin 12) : Device :=
  if (d.measured z).validity = .failed then d.faultZone z 1
  else if (d.measured z).validity ≠ .fresh then d.holdZone z 1
  else if d.holdDemand z then d.holdZone z 2
  else d

/-- R77: a zone enters PREHEAT from OFF or from PURGE: seeded, then checked. -/
def Device.enterPreheatSeeded (d : Device) (z : Fin 12) : Device :=
  let zone := d.zones[z].seed (d.measured z).filtered
  (d.setZone z { zone with mode := .preheat, returnMode := .none, purgeCount := 0, faultDeferred := false }).entryCheck z

/-! ## Reactions -/

/-- R82, R84, R86, R90: a zone sees its measurement channel take a new validity; `demand` is its hold demand as it has seen it (R85). -/
def Device.zoneSeesValidity (d : Device) (z : Fin 12) (v : Validity) (demand : Bool) : Device :=
  let zone := d.zones[z]
  match v, zone.mode with
  | .stale, .preheat | .stale, .track => d.holdZone z 1
  | .failed, .preheat | .failed, .track | .failed, .hold => d.faultZone z 1
  | .failed, .purge => d.setZone z { zone with faultDeferred := true }
  | .fresh, .hold => if demand then d else d.resumeZone z
  | _, _ => d

/-- R82, R84: a zone sees its hold demand take a new level. -/
def Device.zoneSeesDemand (d : Device) (z : Fin 12) (demand : Bool) : Device :=
  match demand, d.zones[z].mode with
  | true, .preheat | true, .track => d.holdZone z 2
  | false, .hold => if (d.measured z).validity = .fresh then d.resumeZone z else d
  | _, _ => d

/-- R88: one zone at a break declaration. -/
def Device.zoneSeesBreak (d : Device) (z : Fin 12) : Device :=
  let zone := d.zones[z]
  match zone.mode, zone.returnMode with
  | .preheat, _ | .track, _ => d.purgeZone z
  | .hold, .preheat | .hold, .track => d.setZone z { zone with returnMode := .purge }
  | _, _ => d

/-- R88: every zone at a break declaration; the zones that it takes out of PREHEAT are noted (R80, log 27). -/
def Device.zonesSeeBreak (d : Device) : Device :=
  (List.finRange 12).foldl Device.zoneSeesBreak { d with breakMet := d.breakMet ||| d.zoneMaskOf fun z => z.mode == .preheat }

/-- R89: the next tick ends the zone's purge. -/
def Zone.purgeEnds (z : Zone) : Bool := z.mode == .purge && decide (z.purgeCount ≤ 1)

/-- R89: one tick at a zone: only a purge counts it. -/
def Device.zoneTick (d : Device) (z : Fin 12) : Device :=
  let zone := d.zones[z]
  if zone.mode = .purge then
    if 1 < zone.purgeCount then d.setZone z { zone with purgeCount := zone.purgeCount - 1 }
    else if zone.faultDeferred then d.faultZone z 3
    else d.enterPreheatSeeded z
  else d

/-! ## The update -/

/-- What an update reads beside the zone's own record (R92): the measurement, the lead speed, whether the Break Monitor is ARMED,
whether the web moves (R81), and the zone's ACTIVE curve. -/
structure UpdateInput where
  m : Int
  lead : Int
  armed : Bool
  moving : Bool
  curve : Curve

/-- R93: the measurement is above its band. -/
def Zone.overTemperature (z : Zone) (m : Int) : Bool := decide (z.spMax + z.overBand < m)

/-- R81: the zone enters TRACK within this update. -/
def Zone.tracksNow (z : Zone) (x : UpdateInput) : Bool :=
  z.mode == .preheat && z.autoTrack && x.armed && x.moving && x.curve.length != 0

/-- R94: target, clamped to the zone's range, and feedforward, in the mode the update runs in. -/
def Zone.targetAndFeed (z : Zone) (x : UpdateInput) : Int × Int :=
  if z.mode = .track then
    let r := x.curve.lookup x.lead
    (clamp z.spMin z.spMax r.1, r.2)
  else (clamp z.spMin z.spMax z.preheatSetpoint, 0)

/-- R96: the error, clamped. -/
def zoneError (kind : ZoneKind) (w m : Int) : Int :=
  clamp (-2000) 2000 (match kind with
    | .dryer => w - m
    | .chill => m - w)

/-- R96: the proportional term. -/
def proportional (kp e : Int) : Int := (kp * e).tdiv 64

/-- R97: the integrator after conditional integration. -/
def integrate (ki e i : Int) (dir : LimitDir) : Int :=
  let di := (ki * e).tdiv 1024
  let di := match dir with
    | .up => if 0 < di then 0 else di
    | .down => if di < 0 then 0 else di
    | .none => di
  clamp (-10000) 10000 (i + di)

/-- R98: the integrator after a rebase. -/
def rebase (uPrev f p : Int) : Int := clamp (-10000) 10000 (uPrev - f - p)

/-- R100: the output after the slew limit. -/
def slew (uPrev slewMax u1 : Int) : Int := clamp (uPrev - slewMax) (uPrev + slewMax) u1

/-- R101: the direction in which the output was held back. -/
def limitDirOf (u uRaw : Int) : LimitDir := if u < uRaw then .up else if uRaw < u then .down else .none

/-- R98: the update rebases the integrator. -/
def Zone.rebases (z : Zone) : Bool := z.mode == .track && z.bumpless

/-- R94 to R101: the steps of an update after the checks, in the mode that the zone is now in. -/
def Zone.compute (kind : ZoneKind) (z : Zone) (x : UpdateInput) : Zone :=
  let tf := z.targetAndFeed x
  let w := moveToward z.rampStep tf.1 z.w
  let e := zoneError kind w x.m
  let p := proportional z.kp e
  let i := if z.rebases then rebase z.u tf.2 p else integrate z.ki e z.i z.limitDir
  let uRaw := tf.2 + p + i
  let u := slew z.u z.slewMax (clamp z.outMin z.outMax uRaw)
  { z with w := w, i := i, u := u, limitDir := limitDirOf u uRaw }

/-- R92: what an update of this zone reads. -/
def Device.updateInput (d : Device) (z : Fin 12) : UpdateInput :=
  { m := (d.measured z).filtered
    lead := d.speed.lead
    armed := d.monitor.state == .armed
    moving := d.speed.state.moving
    curve := d.profile.active[z] }

/-- R92, R93, R81, R98: a sample arrival at a zone. -/
def Device.zoneArrival (d : Device) (z : Fin 12) : Device :=
  let zone := d.zones[z]
  if zone.mode = .preheat ∨ zone.mode = .track then
    let x := d.updateInput z
    if zone.overTemperature x.m then d.faultZone z 2
    else
      let zone1 := if zone.tracksNow x then { zone with mode := .track } else zone
      let d1 := d.setZone z (zone1.compute (zoneKind z) x)
      if zone1.rebases then d1.endMark z true else d1
  else d

/-! ## Writing and reading a record -/

/-- R72: the parameters of a SETUP write are in range. -/
def zoneSetupInRange (spMin spMax preheat rampStep : Int) : Bool :=
  inRange (-500) 4500 spMin && inRange (-500) 4500 spMax && inRange (-500) 4500 preheat && decide (spMin ≤ spMax)
    && inRange 1 500 rampStep

/-- R72: an accepted SETUP write; W is clamped into the new range. -/
def Zone.writeSetup (z : Zone) (enabled : Bool) (channel : Fin 32) (spMin spMax preheat rampStep : Int) (autoTrack : Bool) : Zone :=
  { z with
    enabled := enabled, measChannel := channel, spMin := spMin, spMax := spMax, preheatSetpoint := preheat, rampStep := rampStep
    autoTrack := autoTrack, w := clamp spMin spMax z.w }

/-- R73. -/
def zoneLoopInRange (kp ki outMin outMax slewMax : Int) : Bool :=
  decide (kp ≤ 4095) && decide (ki ≤ 4095) && inRange 0 10000 outMin && inRange 0 10000 outMax && decide (outMin ≤ outMax)
    && inRange 1 10000 slewMax

/-- R73. -/
def Zone.writeLoop (z : Zone) (kp ki outMin outMax slewMax : Int) : Zone :=
  { z with kp := kp, ki := ki, outMin := outMin, outMax := outMax, slewMax := slewMax }

/-- R74. -/
def zoneSafetyInRange (overBand purgeOutput faultOutput purgeTime : Int) : Bool :=
  decide (overBand ≤ 1000) && inRange 0 10000 purgeOutput && inRange 0 10000 faultOutput && inRange 1 65535 purgeTime

/-- R74: an accepted SAFETY write; U follows in PURGE and in FAULT. -/
def Zone.writeSafety (z : Zone) (overBand purgeOutput faultOutput : Int) (purgeTime : Nat) : Zone :=
  { z with
    overBand := overBand, purgeOutput := purgeOutput, faultOutput := faultOutput, purgeTime := purgeTime
    u := if z.mode = .purge then purgeOutput else if z.mode = .fault then faultOutput else z.u }

/-- R75, R184: the fields of a part, in the order of R72, R73 or R74. -/
def Zone.setupWords (z : Zone) : List Word :=
  [boolWord z.enabled, natWord z.measChannel.val, toWord z.spMin, toWord z.spMax, toWord z.preheatSetpoint, toWord z.rampStep,
    boolWord z.autoTrack]

/-- R75, R184. -/
def Zone.loopWords (z : Zone) : List Word := [toWord z.kp, toWord z.ki, toWord z.outMin, toWord z.outMax, toWord z.slewMax]

/-- R75, R184. -/
def Zone.safetyWords (z : Zone) : List Word :=
  [toWord z.overBand, toWord z.purgeOutput, toWord z.faultOutput, natWord z.purgeTime]

/-- R75: ZONE_STATE. -/
def Device.zoneStateWords (d : Device) (z : Fin 12) : List Word :=
  let zone := d.zones[z]
  [natWord zone.mode.code, natWord zone.returnMode.code, toWord zone.w, toWord zone.i, toWord zone.u, natWord zone.limitDir.code,
    boolWord zone.bumpless, natWord zone.purgeCount, boolWord zone.faultDeferred, boolWord (d.holdDemand z),
    (match zoneKind z with
      | .dryer => 0
      | .chill => 1)]

/-! ## SET_ZONE_MODE (R78, R79) -/

/-- R80: a declaration that comes together with the command has taken this zone from PREHEAT to PURGE. -/
def Device.breakCameFirst (d : Device) (z : Fin 12) : Bool :=
  d.breakMet.getLsbD z.val && d.zones[z].mode == .purge && d.monitor.state == .broken

/-- R78: why a zone may not go to a target mode, none where it may. R80 names reason 3 where a TRACK command meets a declaration
that came with it and was taken first, although R88 has by then put the zone in PURGE, for which the order of R78 gives reason 1: the narrower
rule is followed (log 27, DEDUCED). -/
def Device.modeObstacle (d : Device) (z : Fin 12) (target : Mode) : Option Nat :=
  let zone := d.zones[z]
  match target with
  | .off => none
  | .preheat => if !zone.enabled then some 2 else if zone.mode ≠ .off ∧ zone.mode ≠ .track then some 1 else none
  | .track =>
    if !zone.enabled then some 2
    else if zone.mode ≠ .preheat ∧ d.breakCameFirst z = false then some 1
    else if d.monitor.state ≠ .armed then some 3
    else if d.profile.active[z].length = 0 then some 4
    else if d.speed.state = .unknown then some 5
    else none
  | .hold | .purge | .fault => some 6

/-- R78: the first zone of the mask that may not go to the target, with its reason code. -/
def Device.modeRefusal (d : Device) (mask : Word) (target : Mode) : Option (Fin 12 × Nat) :=
  (List.finRange 12).findSome? fun z =>
    if mask.getLsbD z.val then (d.modeObstacle z target).map fun r => (z, r) else none

/-- R79: one zone of an accepted SET_ZONE_MODE. -/
def Device.commandZone (d : Device) (z : Fin 12) (target : Mode) : Device :=
  let zone := d.zones[z]
  match target, zone.mode with
  | .off, .off => d
  | .off, _ =>
    let d1 := d.endMark z false
    d1.setZone z d1.zones[z].toOff
  | .preheat, .off => d.enterPreheatSeeded z
  | .preheat, .track =>
    let d1 := d.endMark z false
    (d1.setZone z { d1.zones[z] with mode := .preheat }).entryCheck z
  | .track, .preheat => (d.setZone z { zone with mode := .track }).entryCheck z
  | _, _ => d

/-- R79: every zone of the mask, in ascending order. -/
def Device.commandZones (d : Device) (mask : Word) (target : Mode) : Device :=
  (List.finRange 12).foldl (fun d z => if mask.getLsbD z.val then d.commandZone z target else d) d

/-- R79: the mode codes of Z0..Z11. -/
def Device.modeWords (d : Device) : List Word := (List.finRange 12).map fun z => natWord d.zones[z].mode.code

end Sys2Proof.Machine
end

