-- ==== Sys2Proof/Machine/Monitor.lean ====
section
/-! DEFINITION. The Break Monitor (chapter 8): its states and sources (R139, R140), the declaration (R142, R143), its commands (R145 to R148)
and its records (R135, R143). -/

namespace Sys2Proof.Machine

/-- R143: a record joins the newest end; the oldest of eight leaves first. -/
def pushBreakRecord (rs : List BreakRecord) (r : BreakRecord) : List BreakRecord :=
  (if rs.length < Config.historyCapacity then rs else rs.drop 1) ++ [r]

/-- R142: a declaration may be made, from ARMED or SUSPECT. -/
def BreakState.mayDeclare : BreakState → Bool
  | .armed | .suspect => true
  | .disarmed | .broken => false

/-- R143: the record of a declaration made at this moment. -/
def Device.breakRecord (d : Device) (cause : BreakCause) (index : Nat) : BreakRecord :=
  { cause := cause
    causeIndex := index
    stamp := d.port.cycleCount
    lead := d.speed.lead
    trackMask := d.trackMask
    suspectDuration := if d.monitor.state = .suspect then d.monitor.suspectTicks else 0
    sequence := d.monitor.declarations + 1 }

/-- R142, R157: the declaration at the Monitor, with the entry of the actuators into their break phases; nothing in DISARMED or BROKEN.
The zones (R88) and the Capture Buffer (R172) take the declaration as reactions of their own. -/
def Device.declareBreak (d : Device) (cause : BreakCause) (index : Nat) : Device :=
  if d.monitor.state.mayDeclare then
    let r := d.breakRecord cause index
    let m := { d.monitor with
      state := .broken, countdown := 0, suspectTicks := 0
      history := pushBreakRecord d.monitor.history r, declarations := r.sequence }
    ({ d with monitor := m, actuators := d.actuators.map Actuator.enterBreak }).raise .breakDeclared index (natWord cause.code)
  else d

/-- R139: a rise of the soft level in ARMED enters SUSPECT; `index` is the lowest true SOFT_BREAK term. -/
def Device.enterSuspect (d : Device) (index : Nat) : Device :=
  if d.monitor.state = .armed then
    ({ d with monitor := { d.monitor with
        state := .suspect, countdown := d.monitor.confirmTime, suspectTicks := 0 } }).raise .breakSuspect index
      (natWord d.monitor.confirmTime)
  else d

/-- R140: a fall of the soft level in SUSPECT returns to ARMED. -/
def Device.clearSuspect (d : Device) : Device :=
  if d.monitor.state = .suspect then
    ({ d with monitor := { d.monitor with state := .armed, countdown := 0, suspectTicks := 0 } }).raise .suspectCleared 0
      (natWord d.monitor.suspectTicks)
  else d

/-- R140: the confirmation countdown after a tick, with the ticks spent in SUSPECT. -/
def Monitor.countTick (m : Monitor) : Monitor :=
  { m with countdown := m.countdown - 1, suspectTicks := min 65535 (m.suspectTicks + 1) }

/-- R140: one tick at the Monitor; the flag says that the countdown has expired and the break is declared. -/
def Device.monitorTick (d : Device) : Device × Bool :=
  if d.monitor.state = .suspect then
    let d1 := { d with monitor := d.monitor.countTick }
    if d1.monitor.countdown = 0 then (d1.declareBreak .softTerm (d1.causeIndex .softTerm), true) else (d1, false)
  else (d, false)

/-- R143: the cause index at the moment at which a queued rise is taken. Where no term or group that made the level rise is active any more,
it is the index at the rise, `risen` (DESIGN CHOICE, log 29). -/
def Device.causeIndexNow (d : Device) (cause : BreakCause) (risen : Nat) : Nat :=
  match cause with
  | .token => if d.monitor.token then d.causeIndex .token else risen
  | .hardTerm => if d.anyTerm .hardBreak then d.causeIndex .hardTerm else risen
  | .softTerm => if d.softLevel then d.causeIndex .softTerm else risen
  | .line | .command => risen

/-- R139: the source whose change made the hard level rise, in the order LINE, TOKEN, HARD_TERM. R139 gives the order LINE, TOKEN for a write;
that both come before a HARD_BREAK term that rises in the settlement of the same change is the model's (DEDUCED, log 30). -/
def risenCause (d0 d : Device) : BreakCause :=
  if !d0.wbrkSource && d.wbrkSource then .line
  else if !d0.monitor.token && d.monitor.token then .token
  else .hardTerm

/-- R145: the first reason for which ARM_BREAK is refused with NOT_READY, with its detail. -/
def Device.armObstacle (d : Device) : Option (Nat × Nat) :=
  if d.speed.state = .unknown then some (2, 0)
  else if !d.webPresentLevel then some (3, d.lowestTermIndex .webPresent false)
  else if d.wbrkSource then some (4, 0)
  else if d.monitor.token then some (5, d.monitor.tokenGroups.toNat)
  else if d.anyTerm .hardBreak then some (6, d.lowestTermIndex .hardBreak true)
  else if d.softLevel then some (7, d.lowestTermIndex .softBreak true)
  else none

/-- R145: the Monitor enters ARMED. -/
def Device.armed (d : Device) : Device :=
  { d with monitor := { d.monitor with state := .armed, countdown := 0, suspectTicks := 0 } }

/-- R147: the first active source that refuses RESET_BREAK, with its detail. -/
def Device.resetObstacle (d : Device) : Option (Nat × Nat) :=
  if d.wbrkSource then some (1, 0)
  else if d.anyTerm .hardBreak then some (3, d.lowestTermIndex .hardBreak true)
  else if d.softLevel then some (4, d.lowestTermIndex .softBreak true)
  else none

/-- R147: the lowest-numbered purging zone. -/
def Device.purgingZone (d : Device) : Option (Fin 12) := (List.finRange 12).find? fun z => d.zones[z].purging

/-- R148, R160: an accepted RESET_BREAK. -/
def Device.endBreak (d : Device) : Device :=
  ({ d with
      monitor := { d.monitor with state := .disarmed }
      actuators := d.actuators.map Actuator.endBreak }).raise .breakReset 0 d.monitor.declarations

/-- R135: record 0. -/
def Monitor.configWords (m : Monitor) : List Word :=
  [boolWord m.wbrkEnable, boolWord m.wbrkActive, m.membership.setWidth 16, natWord m.confirmTime]

/-- R135: record 1. -/
def Device.monitorStateWords (d : Device) : List Word :=
  let m := d.monitor
  [natWord m.state.code, natWord m.countdown, natWord m.suspectTicks, boolWord d.wbrkSource, m.tokenGroups.setWidth 16,
    m.lastNotice.setWidth 16, m.lastAssert.setWidth 16, boolWord (d.anyTerm .hardBreak), boolWord d.softLevel,
    boolWord d.webPresentLevel, natWord m.history.length, m.declarations]

/-- R143: the words of a Break History read; 0 names the newest record. -/
def Monitor.historyWords (m : Monitor) (index : Nat) : List Word :=
  let held := natWord m.history.length
  match m.history.reverse[index]? with
  | some r =>
    [held, 1, natWord r.cause.code, natWord r.causeIndex, highHalf r.stamp, lowHalf r.stamp, toWord r.lead,
      r.trackMask.setWidth 16, natWord r.suspectDuration, r.sequence, m.declarations]
  | none => [held, 0, 0, 0, 0, 0, 0, 0, 0, 0, m.declarations]

end Sys2Proof.Machine
end

