-- ==== Sys2Proof/Machine/Speed.lean ====
section
/-! DEFINITION. The Speed Tracker (chapter 3): a speed sample in its three steps (R46 to R48), the loss of the speed channel (R49) and the
configuration record (R43, R44). -/

namespace Sys2Proof.Machine

/-- R46: the sample joins the newest end of the history; the oldest of eight leaves first. -/
def pushSample (history : List Int) (x : Int) : List Int :=
  (if history.length < Config.speedHistoryCapacity then history else history.drop 1) ++ [x]

/-- R46: the acceleration estimate of a history: newest minus oldest where it is full, 0 otherwise. -/
def acceleration (history : List Int) : Int :=
  if history.length = Config.speedHistoryCapacity then history.getLastD 0 - history.headD 0 else 0

/-- R47: the lead speed. -/
def leadSpeed (v a leadFactor : Int) : Int := clamp 0 1500 (v + (a * leadFactor).tdiv 8)

/-- R48: the speed state. -/
def Speed.decide (s : Speed) (v a : Int) : SpeedState :=
  if v < s.crawlSpeed then .stopped
  else if v < s.runSpeed then .crawl
  else if s.accelBand ≤ a then .accel
  else if a ≤ -s.accelBand then .decel
  else .steady

/-- R46, R47, R48: the tracker takes a speed sample. -/
def Speed.takeSample (s : Speed) (v : Int) : Speed :=
  let history := pushSample s.history v
  let a := acceleration history
  { s with history := history, v := v, a := a, lead := leadSpeed v a s.leadFactor, state := s.decide v a }

/-- R49: the speed channel left FRESH, or was changed (R50): v and L are held. -/
def Speed.lose (s : Speed) : Speed := { s with state := .unknown, history := [], a := 0 }

/-- R43: an accepted write; a change of speed channel acts as a loss. -/
def Speed.write (s : Speed) (channel : Fin 32) (crawlSpeed runSpeed accelBand leadFactor : Int) : Speed :=
  let s1 := { s with
    speedChannel := channel, crawlSpeed := crawlSpeed, runSpeed := runSpeed, accelBand := accelBand, leadFactor := leadFactor }
  if s.speedChannel = channel then s1 else s1.lose

/-- R43: the parameters are in range. -/
def speedConfigInRange (crawlSpeed runSpeed accelBand leadFactor : Int) : Bool :=
  inRange 0 1500 crawlSpeed && inRange crawlSpeed 1500 runSpeed && inRange 1 1500 accelBand && inRange 0 255 leadFactor

/-- R44: record 0. -/
def Speed.configWords (s : Speed) : List Word :=
  [natWord s.speedChannel.val, toWord s.crawlSpeed, toWord s.runSpeed, toWord s.accelBand, toWord s.leadFactor]

/-- R44: record 1. -/
def Speed.stateWords (s : Speed) : List Word :=
  [natWord s.state.code, natWord s.history.length, toWord s.v, toWord s.a, toWord s.lead] ++ (s.history.take 8).map toWord

end Sys2Proof.Machine
end

