-- ==== Sys2Proof/Machine/Timers.lean ====
section
/-! DEFINITION. The Timer Units (chapter 6): starting and ending a count (section 6.2), input edges and clocks by mode (R106 to R113), and
the record's write (R116, R117). -/

namespace Sys2Proof.Machine

/-- R104: whether the unit is counting; in COUNT mode this follows the input. -/
def Timer.isCounting (t : Timer) : Bool :=
  match t.mode with
  | .count => !t.inputLevel
  | .delay | .oneShot | .gap | .edge => t.counting

/-- R117: a pending latch is loaded into N. -/
def Timer.loadLatch (t : Timer) : Timer := if t.latchPending then { t with n := t.latchN, latchPending := false } else t

/-- Section 6.2: a count is started; a pending latch is loaded first. -/
def Timer.start (t : Timer) : Timer := { t.loadLatch with counting := true, count := 0 }

/-- Section 6.2: the unit becomes idle. -/
def Timer.idle (t : Timer) : Timer := { t with counting := false, count := 0 }

/-- R106: the edge field selects an edge to this level. -/
def EdgeSelect.selects (e : EdgeSelect) (level : Bool) : Bool :=
  match e with
  | .rise => level
  | .fall => !level
  | .both => true

/-- R109 to R113: the unit takes an input edge to a level. -/
def Timer.takeEdge (t : Timer) (level : Bool) : Timer :=
  let t1 := { t with inputLevel := level }
  let selected := t.edge.selects level
  match t.mode with
  | .delay => if selected then t1.start else { t1.idle with output := level }
  | .oneShot => if selected && !t.output then { t1.start with output := true } else t1
  | .gap => if selected then (if t.counting then { t1.start with output := true } else t1.start) else t1
  | .edge => if selected && !t.output then { t1.start with output := true } else t1
  | .count => if level then { t1 with count := 0 } else t1

/-- R109 to R113: the unit takes a clock; the flag says that it makes a terminal event (R114). -/
def Timer.takeClock (t : Timer) : Timer × Bool :=
  match t.mode with
  | .delay =>
    if !t.counting then (t, false)
    else if t.n ≤ t.count + 1 then ({ t.idle with output := t.inputLevel }, true)
    else ({ t with count := t.count + 1 }, false)
  | .oneShot | .gap =>
    if !t.counting then (t, false)
    else if t.n ≤ t.count + 1 then ({ t.idle with output := false }, true)
    else ({ t with count := t.count + 1 }, false)
  | .edge => if t.counting then ({ t.idle with output := false }, true) else (t, false)
  | .count =>
    if t.inputLevel then ({ t with output := false }, false)
    else if t.n ≤ t.count + 1 then ({ ({ t with count := 0 } : Timer).loadLatch with output := true }, true)
    else ({ t with output := false, count := t.count + 1 }, false)

/-- R117: a written N: directly where the unit is not counting, into the latch where it is. A discarded latch leaves latchN as it stood
(log 11). -/
def Timer.writeN (t : Timer) (n : Nat) : Timer :=
  if t.isCounting then { t with latchN := n, latchPending := true }
  else { t with n := n, latchPending := false }

/-- R116: the five fields whose change resets the unit. -/
def Timer.sameFields (t : Timer) (mode : TimerMode) (input : Cond) (edge : EdgeSelect) (clock : ClockSource) (hold : Cond) : Bool :=
  t.mode == mode && t.input == input && t.edge == edge && t.clock == clock && t.hold == hold

/-- R116: the unit reset by a write that changes one of the five fields; `inputLevel` is taken by the caller. -/
def Timer.rewritten (t : Timer) (mode : TimerMode) (input : Cond) (edge : EdgeSelect) (clock : ClockSource) (n : Nat) (hold : Cond) :
    Timer :=
  { t with
    mode := mode, input := input, edge := edge, clock := clock, n := n, hold := hold
    counting := false, count := 0, output := false, latchPending := false }

/-- R105: the unit at SOFT_RESET, before its input level is taken afresh. -/
def Timer.softReset (t : Timer) : Timer :=
  let t1 := t.loadLatch
  { t1 with counting := false, count := 0, output := false, latchN := t1.n }

/-- R107: the unit that follows in the ring of six. -/
def nextUnit (k : Fin 6) : Fin 6 := k + 1

/-- A clock from this source at this unit: R107 gives it to the unit only where its clock field, as it stands when the clock is taken, names
the source (R119; log 28), and R108 passes it by while the hold condition is true. The flag is the terminal event. -/
def Device.clockTimer (d : Device) (k : Fin 6) (source : ClockSource) : Device × Bool :=
  let t := d.timers[k]
  if t.clock ≠ source ∨ d.level t.hold = true then (d, false)
  else
    let r := t.takeClock
    (d.setTimer k r.1, r.2)

/-- R106: a change of the condition `c` to a level, as this unit takes it: an input edge where `c` is then its input (R119) and the unit does not
already hold the level. -/
def Device.edgeTimer (d : Device) (k : Fin 6) (c : Cond) (level : Bool) : Device :=
  let t := d.timers[k]
  if t.input ≠ c ∨ t.inputLevel = level then d else d.setTimer k (t.takeEdge level)

/-- R118, R184: the configuration fields. -/
def Timer.configWords (t : Timer) : List Word :=
  [natWord t.mode.code, t.input.toWord, natWord t.edge.code, natWord t.clock.code, natWord t.n, t.hold.toWord]

/-- R118: TIMER_STATE. -/
def Device.timerStateWords (d : Device) (k : Fin 6) : List Word :=
  let t := d.timers[k]
  [boolWord t.isCounting, natWord t.count, boolWord t.output, boolWord t.inputLevel, boolWord (d.level t.hold),
    boolWord t.latchPending, natWord t.latchN, natWord t.n]

end Sys2Proof.Machine
end

