-- ==== Sys2Proof/Machine/Cascade.lean ====
section
/-! DEFINITION. Events and what follows from them. A `Job` is one whole event at one block. Its effect changes the state once; the terms then
settle (R123), the permit is checked (R131), and every consumer of the change gets a job of its own: timers their input edges (R106),
zones their hold demands (R82), the Break Monitor its level changes (R138), the Capture Buffer its rises (R129). All jobs that wait at one
moment stand in one list, whatever event they follow from, and which is taken next is a choice within the orders that the rules fix
(log 3). The jobs that follow through terms from one originating change share its cascade (R124, log 18), and a rise of the soft level waits for
the rise of the hard level that its own event brings about (R138, log 40). -/

namespace Sys2Proof.Machine

/-- One event at one block. -/
inductive Job where
  /-- R15: a tick at the cycle timeout countdown. -/
  | timeoutTick
  /-- R16, R19: the link at a good completion. -/
  | linkGood
  /-- R17, R19: the link at a bad completion. -/
  | linkBad
  /-- R37: a tick at a channel: its events (R39). -/
  | channelTick (c : Fin 32)
  /-- R29: a staged sample at its channel: its events (R39). -/
  | channelSample (c : Fin 32) (raw : Word)
  /-- R36: the change of a channel that a tick or a sample makes: its new record, and the validities that it passes through. -/
  | channelChange (c : Fin 32) (x : Channel) (vs : List Validity)
  /-- R49: the speed channel has left FRESH. -/
  | speedLoss
  /-- R45: a sample arrival at the Speed Tracker. -/
  | speedSample
  /-- R82, R84, R86, R90: a zone's measurement channel has taken a validity. -/
  | zoneValidity (z : Fin 12) (v : Validity)
  /-- R82, R84: a zone's hold demand has taken a level. -/
  | zoneDemand (z : Fin 12) (demand : Bool)
  /-- R89: a tick at a zone. -/
  | zoneTick (z : Fin 12)
  /-- R92: a sample arrival at a zone. -/
  | zoneArrival (z : Fin 12)
  /-- R88: a break declaration at the zones. -/
  | zonesBreak
  /-- R106: the input condition `c` of a unit has taken a level. -/
  | timerEdge (k : Fin 6) (c : Cond) (level : Bool)
  /-- R107: a clock from this source at a unit. -/
  | timerClock (k : Fin 6) (source : ClockSource)
  /-- R124: a deferred term at the tick. -/
  | deferredTerm (j : Fin 8)
  /-- R139, R140: a rise of the hard level at the Monitor; `risen` is the cause index at the rise. -/
  | hardRise (cause : BreakCause) (risen : Nat)
  /-- R139: a rise of the soft level; `risen` is the source index at the rise. -/
  | softRise (risen : Nat)
  /-- R140: a fall of the soft level. -/
  | softFall
  /-- R140: a tick at the Monitor. -/
  | monitorTick
  /-- R172, R173: the capture triggers of one origin, in their order. -/
  | captureTrigger (sources : List Nat)
  /-- R170: a completion at the Capture Buffer. -/
  | captureRecord (good : Bool)
  /-- R18: a delivered control word. -/
  | controlWord (w : Word)
  /-- R137: a delivered break word. -/
  | breakWord (w : Word)
  /-- R53: the accepted MARK level. -/
  | markLevel (level : Bool)
  /-- R121: the accepted WBRK level. -/
  | wbrkLevel (level : Bool)
  /-- R131: PERMIT_DROPPED of a permit that has dropped. -/
  | permitDropped (source reason : Nat)
  /-- R16, R179: the command of a good completion is handed to the Mailbox. -/
  | command
  deriving DecidableEq, Repr

/-- What an event does: the state it leaves, the jobs that it hands on, and whether the terms that it changed itself count as changed
within the cascade (log 5). -/
structure Effect where
  dev : Device
  next : List Job := []
  counts : Bool := true

/-! ## The effect of each event -/

/-- R36, R49: who sees a channel go from one validity through others: the Speed Tracker, where its channel leaves FRESH, then the zones
that measure it. -/
def validityJobs (d : Device) (c : Fin 32) (old : Validity) (vs : List Validity) : List Job :=
  (if c = d.speed.speedChannel ∧ old = .fresh ∧ vs ≠ [] then [.speedLoss] else [])
    ++ vs.flatMap fun v =>
      ((List.finRange 12).filter fun z => d.zones[z].measChannel == c).map fun z => .zoneValidity z v

/-- R36: a channel takes its new record, and the change of its validity is handed on. The changes that one sample makes at the channel's HI, LO
and CHAN_FAILED conditions (R33, R34, R41) reach the terms as one change, in one settlement (DESIGN CHOICE, log 38). -/
def Device.changeChannel (d : Device) (c : Fin 32) (x : Channel) (vs : List Validity) : Effect :=
  { dev := d.setChannel c x, next := validityJobs d c d.channels[c].validity vs }

/-- R37, R39: a channel raises the events of a change and hands the change on: the channels raise in ascending index, and their changes may
then be seen in any order (R125). -/
def Device.announceChannel (d : Device) (c : Fin 32) (r : ChannelChange) (vs : List Validity) : Effect :=
  { dev := d.raiseAll c.val r.2, next := [.channelChange c r.1 vs] }

/-- The validity that a sample brings a channel to, where it is a new one. -/
def sampleValidities (c : Channel) (w : Word) : List Validity :=
  let v := (c.takeSample w).1.validity
  if v = c.validity then [] else [v]

/-- R15, R19: a tick at the cycle timeout countdown. R19 gives LINK_LOST a value and no source index: 0 is the model's (DESIGN CHOICE,
log 31). Where cycleTimeout is 1, a tick after the completion ends even the reloaded countdown, by R15, although R19 says of a completion
that comes together with the expiry that the expiry then does not occur (DESIGN CHOICE, log 36). -/
def Device.timeoutTick (d : Device) : Device :=
  let d1 := { d with port := { d.port with timeoutCountdown := d.port.timeoutCountdown - 1 } }
  if d.port.timeoutCountdown = 1 ∧ d.port.link = .locked then
    ({ d1 with port := { d1.port with link := .lost } }).raise .linkLost 0 1
  else d1

/-- R16, R19: the link state and the bad run at a good completion. R19 gives LINK_LOCKED no source index: 0 is the model's (DESIGN CHOICE,
log 31). -/
def Device.linkGood (d : Device) : Device :=
  let d1 := { d with port := { d.port with badRun := 0, link := .locked } }
  match d.port.link with
  | .searching => d1.raise .linkLocked 0 0
  | .lost => d1.raise .linkLocked 0 1
  | .locked => d1

/-- R17, R19: the link state and the bad run at a bad completion. FRAME_BAD has source index 0 by R17; R19 gives LINK_LOST none, and 0 is
the model's there (DESIGN CHOICE, log 31). -/
def Device.linkBad (d : Device) : Device :=
  let run := min 255 (d.port.badRun + 1)
  let d1 := ({ d with port := { d.port with badRun := run } }).raise .frameBad 0 (natWord run)
  if d.port.link = .locked ∧ d.slotMap.badLimit ≤ run then
    ({ d1 with port := { d1.port with link := .lost } }).raise .linkLost 0 2
  else d1

/-- R45: the tracker takes the speed channel's filtered value where that channel is of kind SPEED. -/
def Device.speedSample (d : Device) : Device :=
  let c := d.channels[d.speed.speedChannel]
  if c.kind = .speed then { d with speed := d.speed.takeSample c.filtered } else d

/-- R18, R172: the current control word, and the trigger that a rise of its request bit gives. -/
def Device.takeControl (d : Device) (w : Word) : Effect :=
  let request := w.getLsbD 1
  { dev := { d with
      port := { d.port with permitRequest := w.getLsbD 0, triggerRequest := request }
      capture := { d.capture with lastRequest := request } }
    next := if request && !d.capture.lastRequest then [.captureTrigger [1]] else [] }

/-- R124: a deferred term takes the entry that its inputs then select. -/
def Device.settleDeferred (d : Device) (j : Fin 8) : Device :=
  let t := d.terms[j]
  if t.deferred then
    let d1 := d.setTerm j { t with deferred := false }
    let v := d.selected t
    if v = t.value then d1 else d1.changeTerm j v
  else d

/-- R142, R144: the jobs that a declaration hands on to the zones and the Capture Buffer. -/
def declarationJobs : List Job := [.zonesBreak, .captureTrigger [2]]

/-- A declaration as an effect: what a Monitor that may declare hands on. -/
def Device.declareEffect (d : Device) (cause : BreakCause) (index : Nat) : Effect :=
  { dev := d.declareBreak cause index
    next := if d.monitor.state.mayDeclare then declarationJobs else [] }

/-- R107, R114: a clock at a unit; a terminal event is one clock for the next unit where that is clocked by CASCADE. -/
def Device.clockEffect (d : Device) (k : Fin 6) (source : ClockSource) : Effect :=
  let r := d.clockTimer k source
  { dev := r.1
    next := if r.2 && d.timers[nextUnit k].clock == .cascade then [.timerClock (nextUnit k) .cascade] else [] }

/-- R85: the hold demand as a zone has seen it while these events wait: a change of it that still waits has not reached the zone. -/
def Device.demandSeen (d : Device) (waiting : List Job) (z : Fin 12) : Bool :=
  match waiting.findSome? (fun j => match j with
    | .zoneDemand y demand => if y = z then some demand else none
    | _ => none) with
  | some demand => !demand
  | none => d.holdDemand z

/-- The effect of an event on the state, while other events wait. -/
def act (waiting : List Job) (d : Device) : Job → Effect
  | .timeoutTick => { dev := d.timeoutTick }
  | .linkGood => { dev := d.linkGood }
  | .linkBad => { dev := d.linkBad }
  | .channelTick c => d.announceChannel c d.channels[c].tick d.channels[c].tickValidities
  | .channelSample c w => d.announceChannel c (d.channels[c].takeSample w) (sampleValidities d.channels[c] w)
  | .channelChange c x vs => d.changeChannel c x vs
  | .speedLoss => { dev := { d with speed := d.speed.lose } }
  | .speedSample => { dev := d.speedSample }
  | .zoneValidity z v => { dev := d.zoneSeesValidity z v (d.demandSeen waiting z) }
  | .zoneDemand z demand => { dev := d.zoneSeesDemand z demand }
  | .zoneTick z => { dev := d.zoneTick z }
  | .zoneArrival z => { dev := d.zoneArrival z }
  | .zonesBreak => { dev := d.zonesSeeBreak }
  | .timerEdge k c level => { dev := d.edgeTimer k c level }
  | .timerClock k source => d.clockEffect k source
  | .deferredTerm j => { dev := d.settleDeferred j, counts := Config.deferredChangeCounts }
  | .hardRise cause risen => d.declareEffect cause (d.causeIndexNow cause risen)
  | .softRise risen => { dev := d.enterSuspect (d.causeIndexNow .softTerm risen) }
  | .softFall => { dev := d.clearSuspect }
  | .monitorTick => { dev := d.monitorTick.1, next := if d.monitorTick.2 then declarationJobs else [] }
  | .captureTrigger sources => { dev := sources.foldl Device.captureTrigger d }
  | .captureRecord good => { dev := d.recordCompletion good }
  | .controlWord w => d.takeControl w
  | .breakWord w => { dev := { d with monitor := { d.monitor with lastNotice := highByte w, lastAssert := lowByte w } } }
  | .markLevel level => { dev := { d with lines := { d.lines with mark := some level } } }
  | .wbrkLevel level => { dev := { d with lines := { d.lines with wbrk := some level } } }
  | .permitDropped source reason => { dev := d.raise .permitDropped source (natWord reason) }
  | .command => { dev := d }

/-! ## What a settled change hands to its readers -/

/-- R120: the condition is a term. -/
def Cond.isTerm : Cond → Bool
  | .term _ => true
  | .fixed _ | .wbrkLevel | .markLevel | .permitRequest | .linkLocked | .speed _ | .brk _ | .captureFrozen | .timer _ | .zoneFault _
  | .zoneHold _ | .chanHi _ | .chanLo _ | .chanFailed _ | .chanDiscrete _ => false

/-- R106: the units whose input condition, one that is a term or one that is none, has changed level take an edge. -/
def timerReactions (d0 d : Device) (terms : Bool) : List Job :=
  (List.finRange 6).flatMap fun k =>
    let c := d.timers[k].input
    if c.isTerm == terms && d0.level c != d.level c then [.timerEdge k c (d.level c)] else []

/-- R82, R129: the zones whose hold demand has changed. -/
def demandReactions (d0 d : Device) : List Job :=
  (List.finRange 12).flatMap fun z => if d0.holdDemand z != d.holdDemand z then [.zoneDemand z (d.holdDemand z)] else []

/-- R138, R139: the hard level rises. -/
def hardRises (d0 d : Device) : Bool := !d0.hardLevel && d.hardLevel

/-- R139: the hard rise that the Monitor sees, where its cause is a term or where it is none. -/
def hardReactions (d0 d : Device) (terms : Bool) : List Job :=
  let cause := risenCause d0 d
  if hardRises d0 d && (cause == .hardTerm) == terms then [.hardRise cause (d.causeIndex cause)] else []

/-- R138, R139, R140: what the Monitor sees of the soft level. A rise of both levels in one settlement is taken as the hard rise; for rises in
different settlements of one event see `Cascades.mustWait`. -/
def softReactions (d0 d : Device) : List Job :=
  (if !hardRises d0 d && !d0.softLevel && d.softLevel then [.softRise (d.causeIndex .softTerm)] else [])
    ++ (if d0.softLevel && !d.softLevel then [.softFall] else [])

/-- R129, R172: the triggers of the terms bound CAPTURE_TRIGGER whose own value has risen, in ascending index. -/
def captureReactions (d0 d : Device) : List Job :=
  let risen := (List.finRange 8).filter fun j => d.boundTo .captureTrigger j && !d0.terms[j].value && d.terms[j].value
  if risen.isEmpty then [] else [.captureTrigger (risen.map fun j => 3 + j.val)]

/-- What the change from `d0` to `d` hands on to those that read a condition other than a term (R124: not from a term settlement). -/
def directReactions (d0 d : Device) : List Job := timerReactions d0 d false ++ hardReactions d0 d false

/-- What the change from `d0` to `d` hands on through terms. -/
def termReactions (d0 d : Device) : List Job :=
  timerReactions d0 d true ++ demandReactions d0 d ++ hardReactions d0 d true ++ softReactions d0 d ++ captureReactions d0 d

/-- R131: PERMIT_DROPPED, to be raised where the permit must drop. -/
def permitJobs (d : Device) : List Job := if d.permitFails then [.permitDropped d.permitDrop.1 d.permitDrop.2] else []

/-- A change that has settled: the state, the terms that have changed in the cascade, and PERMIT_DROPPED where it still is to be raised. -/
structure Settlement where
  dev : Device
  mask : TermSet
  permit : List Job

/-- R123, R131: the terms settle after the change from `d0` to `d`, and the permit drops at once where it must. The terms' TERM_CHANGED and
PERMIT_DROPPED are events of different blocks at one moment, and are raised in either order (R188, log 21): before the one of them that the
choice names, or after them all, in any order with what the change is handed on to. -/
def settleAndDrop (d0 d : Device) (changed : TermSet) : Settlement :=
  let s := settle d0 d changed
  let n := (termEvents d0 s.1).length
  let r := if s.1.permitFails && n != 0 then s.1.choose (n + 1) else (n, s.1)
  if r.1 < n then { dev := d0.dropAmongTerms d r.2 r.1, mask := s.2, permit := [] }
  else { dev := r.2.dropPermit, mask := s.2, permit := permitJobs r.2 }

/-! ## The events that wait, and taking one of them -/

/-- A waiting event: the one event of the outside that it follows from (DEDUCED, log 40), the cascade that it belongs to (R124), whether it follows from
a term's change within that cascade, and how many events may still follow it one from another (log 6). -/
structure Item where
  origin : Nat
  cascade : Nat
  byTerm : Bool
  life : Nat
  job : Job
  deriving DecidableEq, Repr

/-- The state, the events that wait, and for each cascade the terms that have changed in it. -/
structure Cascades where
  dev : Device
  items : List Item
  masks : List TermSet

/-- The events that come together at one moment, each an event of its own and the originating change of a cascade. -/
def rootItems (js : List Job) : List Item :=
  js.zipIdx.map fun p => { origin := p.2, cascade := p.2, byTerm := false, life := Config.generations, job := p.1 }

/-- What an effect hands on other than through terms: in its own cascade where it comes from a term itself, and otherwise as an originating change
each, numbered from `fresh` on (R124, log 18). -/
def directItems (origin cascade fresh life : Nat) (byTerm : Bool) (js : List Job) : List Item :=
  if byTerm then js.map fun j => { origin := origin, cascade := cascade, byTerm := true, life := life, job := j }
  else (js.zipIdx fresh).map fun p => { origin := origin, cascade := p.2, byTerm := false, life := life, job := p.1 }

/-- What an effect hands on through terms: all of it within the cascade. -/
def termItems (origin cascade life : Nat) (js : List Job) : List Item :=
  js.map fun j => { origin := origin, cascade := cascade, byTerm := true, life := life, job := j }

/-- One effect within a cascade: the state moves from `d0` to the effect's, the terms settle, the permit drops where it must, and the events
that follow join the waiting ones. -/
def Cascades.take (c : Cascades) (origin cascade life : Nat) (byTerm : Bool) (d0 : Device) (e : Effect) : Cascades :=
  let s := settleAndDrop d0 e.dev (c.masks.getD cascade 0 ||| (if e.counts then changedTerms d0 e.dev else 0))
  let direct := e.next ++ directReactions d0 s.dev
  let masks := c.masks.set cascade s.mask
  match life with
  | 0 => { dev := s.dev, items := c.items, masks := masks }
  | n + 1 =>
    { dev := s.dev
      items := c.items ++ directItems origin cascade masks.length n byTerm direct
        ++ termItems origin cascade n (s.permit ++ termReactions d0 s.dev)
      masks := if byTerm then masks else masks ++ List.replicate direct.length 0 }

/-- Take one waiting event: `rest` waits on, and `command` is what the Mailbox does with a command. -/
def Cascades.next (c : Cascades) (command : Device → Device) (it : Item) (rest : List Item) (d : Device) : Cascades :=
  if it.job = .command then { c with dev := command d, items := rest }
  else
    ({ c with dev := d, items := rest } : Cascades).take it.origin it.cascade it.life it.byTerm d (act (rest.map Item.job) d it.job)

/-! ## Which event is taken next -/

/-- The block, or the part of one, whose events are taken in the order in which they were given to it. -/
inductive Block where
  | ring
  | channels
  | channel (c : Fin 32)
  | speed
  | zoneValidity (z : Fin 12)
  | zoneDemand (z : Fin 12)
  | zoneTick (z : Fin 12)
  | zoneBreak
  | zoneArrival (z : Fin 12)
  | timerEdge (k : Fin 6)
  | timerClock (k : Fin 6)
  | terms
  | monitorHard
  | monitorSoft
  | monitorTick
  | capture (first : Nat)
  | recording
  | control
  | breakWord
  | line
  | permit
  | command
  deriving DecidableEq, Repr

/-- The block that an event belongs to. -/
def Job.block : Job → Block
  | .timeoutTick | .linkGood | .linkBad => .ring
  | .channelTick _ | .channelSample _ _ => .channels
  | .channelChange c _ _ => .channel c
  | .speedLoss | .speedSample => .speed
  | .zoneValidity z _ => .zoneValidity z
  | .zoneDemand z _ => .zoneDemand z
  | .zoneTick z => .zoneTick z
  | .zoneArrival z => .zoneArrival z
  | .zonesBreak => .zoneBreak
  | .timerEdge k _ _ => .timerEdge k
  | .timerClock k _ => .timerClock k
  | .deferredTerm _ => .terms
  | .hardRise _ _ => .monitorHard
  | .softRise _ | .softFall => .monitorSoft
  | .monitorTick => .monitorTick
  | .captureTrigger sources => .capture (sources.headD 0)
  | .captureRecord _ => .recording
  | .controlWord _ => .control
  | .breakWord _ => .breakWord
  | .markLevel _ | .wbrkLevel _ => .line
  | .permitDropped _ _ => .permit
  | .command => .command

/-- The event belongs to a channel's taking of a tick or of a sample. -/
def Job.ofChannel : Job → Bool
  | .channelTick _ | .channelSample _ _ | .channelChange _ _ _ => true
  | _ => false

/-- The event belongs to the Speed Tracker. -/
def Job.ofTracker : Job → Bool
  | .speedLoss | .speedSample => true
  | _ => false

/-- R36: the channel whose validity this event, or the change that it announces, moves. -/
def Job.movesValidity (d : Device) : Job → Option (Fin 32)
  | .channelTick c => if d.channels[c].tickValidities.isEmpty then none else some c
  | .channelSample c w => if (sampleValidities d.channels[c] w).isEmpty then none else some c
  | .channelChange c _ vs => if vs.isEmpty then none else some c
  | _ => none

/-- R93: the filtered value that a channel will have once the samples that still wait are taken. -/
def Device.delivered (d : Device) (waiting : List Job) (c : Fin 32) : Int :=
  (waiting.findSome? fun j => match j with
    | .channelSample c' w => if c' = c then some (d.channels[c].takeSample w).1.filtered else none
    | .channelChange c' x _ => if c' = c then some x.filtered else none
    | _ => none).getD d.channels[c].filtered

/-- R82, R84: the zone raises an event at this level of its hold demand. -/
def Device.demandRaises (d : Device) (z : Fin 12) (demand : Bool) : Bool :=
  match demand, d.zones[z].mode with
  | true, .preheat | true, .track => true
  | false, .hold => (d.measured z).validity == .fresh
  | _, _ => false

/-- R93: the zone raises an event at its sample arrival, when every sample that waits has been taken. -/
def Device.arrivalRaises (d : Device) (waiting : List Job) (z : Fin 12) : Bool :=
  let zone := d.zones[z]
  (zone.mode == .preheat || zone.mode == .track) && zone.overTemperature (d.delivered waiting zone.measChannel)

/-- R103: the zone at which the event is a validity of its channel, the end of its purge, or a hold demand or an arrival that raises an event. -/
def Job.zoneEvent (d : Device) (waiting : List Job) : Job → Option (Fin 12)
  | .zoneValidity z _ => some z
  | .zoneTick z => if d.zones[z].purgeEnds then some z else none
  | .zoneDemand z demand => if d.demandRaises z demand then some z else none
  | .zoneArrival z => if d.arrivalRaises waiting z then some z else none
  | _ => none

/-- The part that a block other than the zones, the Break Monitor and the Mailbox takes in a tick, a delivery or another change: the device as this
event will leave it, with its terms settled. Other events leave it as it is. -/
def Device.takePart (d : Device) : Job → Device
  | .zoneValidity _ _ | .zoneDemand _ _ | .zoneTick _ | .zoneArrival _ | .zonesBreak | .hardRise _ _ | .softRise _ | .softFall | .monitorTick
  | .breakWord _ | .permitDropped _ _ | .command => d
  | .channelTick c => settled (d.setChannel c d.channels[c].tick.1)
  | .channelSample c w => settled (d.setChannel c (d.channels[c].takeSample w).1)
  | .channelChange c x _ => settled (d.setChannel c x)
  | j => settled (act [] d j).dev
where
  /-- The terms settle after the change from `d` to `d1`. -/
  settled (d1 : Device) : Device := (settle d d1 (changedTerms d d1)).1

/-- R82, R103: between `d` and `d1` the hold demand of a zone below `y` changes, to a level at which that zone raises an event. -/
def Device.lowerDemandMoves (d d1 : Device) (y : Fin 12) : Bool :=
  (List.finRange 12).any fun z => decide (z < y) && d.holdDemand z != d1.holdDemand z && d.demandRaises z (d1.holdDemand z)

/-- R144: what may be taken between a declaration and its reaction at the zones: the declaration's other reactions, those through the condition
network included, and the recording (R173). A hold demand that falls may so let a zone resume before it purges, but not into TRACK, which the
declaration has closed (R88). -/
def Job.besideBreak (d : Device) : Job → Bool
  | .zoneDemand z demand => demand || d.zones[z].returnMode != .track
  | .timerEdge _ _ _ | .captureTrigger _ | .captureRecord _ | .permitDropped _ _ | .zonesBreak => true
  | _ => false

/-- R92, R103: the event is one at a zone, and a lower zone is still to raise an event by what waits: by an event at that zone, by a change of its
channel's validity, or by a change of its hold demand that waiting events bring about, one of them alone or all together. While the zones are
still to react to a declaration, only what may come before that reaction counts (R144). -/
def Job.waitsForLowerZone (d : Device) (waiting : List Job) (b : Job) : Bool :=
  match b.zoneEvent d waiting with
  | none => false
  | some y =>
    let parts := if waiting.contains .zonesBreak then waiting.filter (Job.besideBreak d) else waiting
    (parts.any fun a => (a.zoneEvent d waiting).any (fun z => decide (z < y))
      || ((a.movesValidity d).any fun c => (List.finRange 12).any fun z => decide (z < y) && d.zones[z].measChannel == c)
      || d.lowerDemandMoves (d.takePart a) y)
      || d.lowerDemandMoves (parts.foldl Device.takePart d) y

/-- The orders that the rules fix between two events: `a` is taken before `b`. Every channel takes its sample before the tracker takes its own and
before any arrival or recording (R16, R36, R45, R170); the tracker comes before the arrivals and the recording (R36, R45); the return of a
zone's channel comes before the zone's arrival (R84); the zones react to a declaration before what R144 does not leave free (R81, R88); a fall
of the soft level comes before a tick at the Monitor (R140); and a command is taken after the deliveries, a cascaded clock and all that follows
from them, in either order with the clocks and the recording of its completion (R16, R107, R114, R119, R170, R175). -/
def Job.precedes (d : Device) (a b : Job) : Bool :=
  (a == .zonesBreak && !b.besideBreak d) ||
  match b with
  | .monitorTick => a == .softFall
  | .speedSample => a.ofChannel
  | .captureRecord _ => a.ofChannel || a.ofTracker
  | .zoneArrival y =>
    a.ofChannel || a.ofTracker
      || (match a with
          | .zoneValidity z _ => z == y
          | _ => false)
  | .command =>
    (match a with
      | .timerClock _ source => source == .cascade
      | .captureRecord _ | .command => false
      | _ => true)
  | _ => false

/-- The event must wait for one of the waiting events. -/
def Job.mustWait (d : Device) (waiting : List Job) (b : Job) : Bool :=
  waiting.any (fun a => a.precedes d b) || b.waitsForLowerZone d waiting

/-- A clock that this unit takes without a change of its output and without a terminal event. -/
def Device.quietClock (d : Device) (k : Fin 6) (source : ClockSource) : Bool :=
  let r := d.clockTimer k source
  (r.1.timers[k].output == d.timers[k].output) && !r.2

/-- The zone stays as it is, whatever it sees of its channel short of a failure, of its hold demand, of a break or of an arrival: OFF, FAULT,
or a purge that the next tick does not end. -/
def Zone.settledMode (z : Zone) : Bool := z.mode == .off || z.mode == .fault || (z.mode == .purge && !z.purgeEnds)

/-- The event commutes with every event that can wait beside it (log 4): it is taken first without a choice. -/
def Job.inert (d : Device) : Job → Bool
  | .timeoutTick => d.port.timeoutCountdown != 1
  | .linkGood => d.port.link == .locked
  | .channelTick c => d.channels[c].tick.2.isEmpty
  | .channelSample c w => (d.channels[c].takeSample w).2.isEmpty
  | .channelChange c x vs =>
    let y := d.channels[c]
    vs.isEmpty && x.hiSet == y.hiSet && x.loSet == y.loSet && x.discreteLevel == y.discreteLevel
  | .zoneValidity z v => d.zones[z].settledMode && !(d.zones[z].mode == .purge && v == .failed)
  | .zoneDemand z _ => d.zones[z].settledMode
  | .zoneArrival z => d.zones[z].settledMode
  | .zoneTick z => d.zones[z].settledMode
  | .zonesBreak => (List.finRange 12).all fun z =>
    d.zones[z].settledMode || (d.zones[z].mode == .hold && d.zones[z].returnMode == .purge)
  | .timerClock k source =>
    (source == .tick || source == .mark) && d.quietClock k source && d.timers[k].input.isFixed && d.timers[k].hold.isFixed
  | .hardRise _ _ | .softRise _ | .softFall | .monitorTick => !d.monitor.state.mayDeclare
  | .captureTrigger _ => !d.capture.state.acceptsTrigger
  | .controlWord w =>
    d.port.permitRequest == w.getLsbD 0 && d.port.triggerRequest == w.getLsbD 1 && d.capture.lastRequest == w.getLsbD 1
  | .breakWord w =>
    d.monitor.token == ({ d.monitor with lastNotice := highByte w, lastAssert := lowByte w } : Monitor).token
  | _ => false

/-- The event changes no condition and hands nothing on (log 4): where every waiting event is such a one, their order does not matter. -/
def Job.quiet (d : Device) (j : Job) : Bool :=
  j.inert d ||
    (match j with
      | .zoneTick z => !d.zones[z].purgeEnds
      | .timerClock k source => d.quietClock k source
      | .monitorTick => d.monitor.state != .suspect || decide (1 < d.monitor.countdown)
      | _ => false)

/-- The first event of each block, as they wait. -/
def blockHeads (xs : List Item) : List Item :=
  (xs.map fun x => x.job.block).eraseDups.filterMap fun b => xs.find? fun x => x.job.block == b

/-- The event is one at the Break Monitor. -/
def Job.ofMonitor : Job → Bool
  | .hardRise _ _ | .softRise _ | .softFall | .monitorTick => true
  | _ => false

/-- The event is a rise of the hard level. -/
def Job.isHardRise : Job → Bool
  | .hardRise _ _ => true
  | _ => false

/-- The event is a rise of the soft level. -/
def Job.isSoftRise : Job → Bool
  | .softRise _ => true
  | _ => false

/-- R138: the hard level has risen, or rises in some order in which these events can be taken with what follows from them, the Monitor taking none
of them; an event that commutes with the others is taken first (log 4). -/
def Cascades.bringHardRise : Nat → Cascades → Bool
  | 0, _ => false
  | n + 1, c =>
    let xs := c.items.filter fun x => !x.job.ofMonitor
    let firsts := match xs.find? fun x => x.job.inert c.dev with
      | some x => [x]
      | none => blockHeads xs
    c.items.any (fun x => x.job.isHardRise) || firsts.any fun x => (c.next id x (xs.erase x) c.dev).bringHardRise n

/-- R138: the one event that `x` follows from makes the hard level rise too: a rise of it already waits, or waiting events of that one event can
still bring it (DEDUCED, log 40). -/
def Cascades.eventRaisesHard (c : Cascades) (x : Item) : Bool :=
  let own := c.items.filter fun y => y.origin == x.origin
  ({ c with items := own } : Cascades).bringHardRise (Config.cascadeFuel * own.length)

/-- The event must wait for one of the waiting events: by the orders of the blocks; and a rise of the soft level for the rise of the hard level
that the same event brings about (R138). -/
def Cascades.mustWait (c : Cascades) (x : Item) : Bool :=
  x.job.mustWait c.dev (c.items.map Item.job) || (x.job.isSoftRise && c.eventRaisesHard x)

/-- Take one of the waiting events: the first inert one; else the first, where all are quiet; else the first event of a block, chosen among
those that need wait for no other event. The answer holds the event, the events that still wait, and the state after the choice. -/
def pickNext (c : Cascades) : Option (Item × List Item × Device) :=
  let d := c.dev
  let xs := c.items
  match xs with
  | [] => none
  | x :: rest =>
    match xs.find? fun y => y.job.inert d with
    | some y => some (y, xs.eraseP (fun y => y.job.inert d), d)
    | none =>
      if xs.all fun y => y.job.quiet d then some (x, rest, d)
      else
        let ready := (blockHeads xs).filter fun y => !c.mustWait y
        let r := if ready.length ≤ 1 then (0, d) else d.choose ready.length
        let y := ready.getD r.1 x
        some (y, xs.erase y, r.2)

/-! ## Following events to their end -/

/-- Take waiting events until none is left. -/
def drain (command : Device → Device) : Nat → Cascades → Device
  | 0, c => c.dev
  | n + 1, c =>
    match pickNext c with
    | none => c.dev
    | some (it, rest, d) => drain command n (c.next command it rest d)

/-- An effect as the originating change of a cascade, followed to its end. -/
def Device.runEffect (d : Device) (e : Effect) : Device :=
  drain id Config.cascadeFuel (({ dev := d, items := [], masks := [0] } : Cascades).take 0 0 Config.generations false d e)

/-- An event, followed to its end. -/
def Device.runJob (d : Device) (j : Job) : Device := d.runEffect (act [] d j)

/-- The events that come together at one moment, each the originating change of a cascade of its own, followed to their end; `command` is what
the Mailbox does with the command that is one of them. -/
def Device.runRoots (d : Device) (command : Device → Device) (roots : List Job) : Device :=
  drain command (Config.cascadeFuel * roots.length + 1)
    { dev := d
      items := rootItems roots
      masks := List.replicate roots.length 0 }

end Sys2Proof.Machine
end

