-- ==== Sys2Proof/Machine/Replies.lean ====
section
/-! DEFINITION. What each mailbox command answers and does, rule by rule, once the Mailbox has taken it (R180, step 3): its refusals in
their order, its effect, and the data of its result. -/

namespace Sys2Proof.Machine

/-- The outcome of a command that the Mailbox executes. -/
inductive Reply where
  /-- The command completes with this result and changes nothing: every refusal, and every read. -/
  | answer (code : ResultCode) (data : List Word)
  /-- OK: the command leaves this device; it changes no condition that a term, a timer, the permit or the Monitor reads. -/
  | store (d : Device) (data : List Word)
  /-- OK: the command is the originating change of a cascade (R124); the data are read from the device that it leaves. -/
  | settled (e : Effect) (data : Device → List Word)
  /-- The command has settled its own result, or waits for it (R62). -/
  | waits (d : Device)

/-- R182: a refusal for a parameter. -/
def Reply.badParam : Reply := .answer .badParam []

/-- R182: a refusal for the present state. -/
def Reply.refused (data : List Word) : Reply := .answer .state data

/-- An OK that changes nothing. -/
def Reply.data (ws : List Word) : Reply := .answer .ok ws

/-! ## Device and Slot Map -/

/-- R185: IDENTIFY. -/
def Device.replyIdentify (d : Device) : Reply :=
  .data [2416, 1, d.mailbox.nodeAddress.setWidth 16, boolWord d.mailbox.ready, natWord d.port.link.code]

/-- R185: READ_STATUS. -/
def Device.replyReadStatus (d : Device) : Reply :=
  .data [d.statusWord, highHalf d.port.cycleCount, lowHalf d.port.cycleCount, natWord d.port.link.code, natWord d.port.badRun,
    natWord d.events.records.length]

/-- R5, R184: the role that a role kind other than EMPTY and a role index name. -/
def Role.ofCodes (kind index : Word) : Option Role :=
  match kind.toNat with
  | 1 => (wordIndex 32 index).map .input
  | 2 => (wordIndex 16 index).map .output
  | 3 => some .status
  | 4 => some .control
  | _ => none

/-- R5: the words of a role: its kind code and its index, 0 for STATUS and CONTROL. -/
def Role.words : Role → List Word
  | .input c => [1, natWord c.val]
  | .output a => [2, natWord a.val]
  | .status => [3, 0]
  | .control => [4, 0]

/-- R4, R5: the new entry would duplicate the slot or the role of another non-empty entry. -/
def SlotMap.conflicts (m : SlotMap) (i : Fin 64) (e : SlotEntry) : Bool :=
  (List.finRange 64).any fun j => j != i && m.entries[j].any fun x => x.slot == e.slot || x.role == e.role

/-- The Slot Map with one entry replaced. -/
def Device.setEntry (d : Device) (i : Fin 64) (e : Option SlotEntry) : Device :=
  { d with slotMap := { d.slotMap with entries := d.slotMap.entries.set i e } }

/-- R6: WRITE_TABLE on the link record. -/
def Device.replyWriteLinkRecord (d : Device) (cycleTimeout badLimit : Word) : Reply :=
  if d.mailbox.ready then .refused []
  else if inRange 1 255 (unsigned cycleTimeout) && inRange 1 15 (unsigned badLimit) then
    .store { d with slotMap := { d.slotMap with cycleTimeout := cycleTimeout.toNat, badLimit := badLimit.toNat } } []
  else .badParam

/-- R5: WRITE_TABLE on an entry of the Slot Map. -/
def Device.replyWriteSlotMap (d : Device) (record : Byte) (slot kind index : Word) : Reply :=
  if record = 64 then d.replyWriteLinkRecord slot kind
  else if d.mailbox.ready then .refused []
  else match recordIndex 64 record with
    | none => .badParam
    | some i =>
      if kind = 0 then .store (d.setEntry i none) []
      else match wordIndex 128 slot, Role.ofCodes kind index with
        | some s, some r =>
          if d.slotMap.conflicts i { slot := s, role := r } then .badParam
          else .store (d.setEntry i (some { slot := s, role := r })) []
        | _, _ => .badParam

/-- R5, R6: READ_TABLE on SLOT_MAP. -/
def Device.replyReadSlotMap (d : Device) (record : Byte) : Reply :=
  if record = 64 then .data [natWord d.slotMap.cycleTimeout, natWord d.slotMap.badLimit]
  else match recordIndex 64 record with
    | none => .badParam
    | some i =>
      match d.slotMap.entries[i] with
      | none => .data [0, 0, 0]
      | some e => .data (natWord e.slot.val :: e.role.words)

/-! ## Input channels -/

/-- R26: WRITE_TABLE CHANNEL, part SCALE. -/
def Device.replyWriteChannelScale (d : Device) (record : Byte) (kind gain offset lo hi alpha : Word) : Reply :=
  match recordIndex 32 record, ChannelKind.ofCode kind with
  | some c, some k =>
    if scaleInRange k (signed gain) (signed offset) (signed lo) (signed hi) (unsigned alpha) then
      let old := d.channels[c]
      let new := old.writeScale k (signed gain) (signed offset) (signed lo) (signed hi) (unsigned alpha)
      if old.kind = k then .store (d.setChannel c new) []
      else if d.mailbox.ready then .refused []
      else .settled (d.changeChannel c new (if old.validity = .none then [] else [.none])) fun _ => []
    else .badParam
  | _, _ => .badParam

/-- R27: failState, 0 CLEAR or 1 SET; the other parameters are checked with it. -/
def Device.replyWriteChannelLimits (d : Device) (record : Byte)
    (staleLimit failLimit hiLimit loLimit hyst failState enables : Word) : Reply :=
  match recordIndex 32 record, yesNo failState with
  | some c, some f =>
    let old := d.channels[c]
    if old.limitsInRange (unsigned staleLimit) (unsigned failLimit) (signed hiLimit) (signed loLimit) (unsigned hyst) then
      let r := old.writeLimits staleLimit.toNat failLimit.toNat (signed hiLimit) (signed loLimit) (unsigned hyst) f enables
      if old.validity = .failed ∧ old.failState ≠ f then .settled { dev := (d.setChannel c r.1).raiseAll c.val r.2 } fun _ => []
      else .store (d.setChannel c r.1) []
    else .badParam
  | _, _ => .badParam

/-- R28: READ_TABLE CHANNEL. -/
def Device.replyReadChannel (d : Device) (record : Byte) (part : Word) : Reply :=
  match recordIndex 32 record, part.toNat with
  | some c, 0 => .data d.channels[c].scaleWords
  | some c, 1 => .data d.channels[c].limitsWords
  | _, _ => .badParam

/-- R28: READ_TABLE CHANNEL_STATE. -/
def Device.replyReadChannelState (d : Device) (record : Byte) : Reply :=
  match recordIndex 32 record with
  | some c => .data d.channels[c].stateWords
  | none => .badParam

/-! ## Speed Tracker -/

/-- R43: WRITE_TABLE SPEED_CONFIG. -/
def Device.replyWriteSpeedConfig (d : Device) (record : Byte) (speedChannel crawlSpeed runSpeed accelBand leadFactor : Word) : Reply :=
  match record.toNat, wordIndex 32 speedChannel with
  | 0, some c =>
    if speedConfigInRange (unsigned crawlSpeed) (unsigned runSpeed) (unsigned accelBand) (unsigned leadFactor) then
      let d1 := { d with
        speed := d.speed.write c (unsigned crawlSpeed) (unsigned runSpeed) (unsigned accelBand) (unsigned leadFactor) }
      if d.speed.speedChannel = c then .store d1 []
      else if d.mailbox.ready then .refused []
      else .settled { dev := d1 } fun _ => []
    else .badParam
  | _, _ => .badParam

/-- R44: READ_TABLE SPEED_CONFIG. -/
def Device.replyReadSpeedConfig (d : Device) (record : Byte) : Reply :=
  match record.toNat with
  | 0 => .data d.speed.configWords
  | 1 => .data d.speed.stateWords
  | _ => .badParam

/-! ## Profile Store -/

/-- R56, R57: WRITE_PROFILE. -/
def Device.replyWriteProfile (d : Device) (header : Word) (points : Vector Word 9) : Reply :=
  match wordIndex 12 (natWord (headerCurve header)) with
  | none => .badParam
  | some c =>
    if profileAccepted header points then
      let curve := d.profile.shadow[c].write (headerFirst header) (headerCount header) (headerLength header) (profilePoint points)
      .store { d with profile := { d.profile with shadow := d.profile.shadow.set c curve } }
        [natWord curve.length, natWord (headerCount header)]
    else .badParam

/-- R58: READ_TABLE on one of the banks. -/
def replyReadBank (bank : Vector Curve 12) (record : Byte) (first : Word) : Reply :=
  match recordIndex 12 record, wordIndex 16 first with
  | some c, some i => .data (bank[c].words i.val)
  | _, _ => .badParam

/-- R59 to R62: COMMIT_PROFILE. -/
def Device.replyCommitProfile (d : Device) (tag : Byte) : Reply :=
  match d.profileFault with
  | some (c, i, f) => .answer .profileInvalid [natWord c.val, natWord i, natWord f.code]
  | none => .waits (d.commitCopy tag)

/-! ## Zones -/

/-- R72: WRITE_TABLE ZONE, part SETUP. -/
def Device.replyWriteZoneSetup (d : Device) (record : Byte)
    (enabled measChannel spMin spMax preheatSetpoint rampStep autoTrack : Word) : Reply :=
  match recordIndex 12 record, yesNo enabled, wordIndex 32 measChannel, yesNo autoTrack with
  | some z, some on, some c, some auto =>
    if zoneSetupInRange (signed spMin) (signed spMax) (signed preheatSetpoint) (unsigned rampStep) then
      if d.mailbox.ready && (d.zones[z].measChannel != c || (!on && d.zones[z].mode != .off)) then .refused []
      else .store (d.setZone z
        (d.zones[z].writeSetup on c (signed spMin) (signed spMax) (signed preheatSetpoint) (unsigned rampStep) auto)) []
    else .badParam
  | _, _, _, _ => .badParam

/-- R73: WRITE_TABLE ZONE, part LOOP. -/
def Device.replyWriteZoneLoop (d : Device) (record : Byte) (kp ki outMin outMax slewMax : Word) : Reply :=
  match recordIndex 12 record with
  | some z =>
    if zoneLoopInRange (unsigned kp) (unsigned ki) (unsigned outMin) (unsigned outMax) (unsigned slewMax) then
      .store (d.setZone z
        (d.zones[z].writeLoop (unsigned kp) (unsigned ki) (unsigned outMin) (unsigned outMax) (unsigned slewMax))) []
    else .badParam
  | none => .badParam

/-- R74: WRITE_TABLE ZONE, part SAFETY. -/
def Device.replyWriteZoneSafety (d : Device) (record : Byte) (overBand purgeOutput faultOutput purgeTime : Word) : Reply :=
  match recordIndex 12 record with
  | some z =>
    if zoneSafetyInRange (unsigned overBand) (unsigned purgeOutput) (unsigned faultOutput) (unsigned purgeTime) then
      .store (d.setZone z
        (d.zones[z].writeSafety (unsigned overBand) (unsigned purgeOutput) (unsigned faultOutput) purgeTime.toNat)) []
    else .badParam
  | none => .badParam

/-- R75: READ_TABLE ZONE. -/
def Device.replyReadZone (d : Device) (record : Byte) (part : Word) : Reply :=
  match recordIndex 12 record, part.toNat with
  | some z, 0 => .data d.zones[z].setupWords
  | some z, 1 => .data d.zones[z].loopWords
  | some z, 2 => .data d.zones[z].safetyWords
  | _, _ => .badParam

/-- R75: READ_TABLE ZONE_STATE. -/
def Device.replyReadZoneState (d : Device) (record : Byte) : Reply :=
  match recordIndex 12 record with
  | some z => .data (d.zoneStateWords z)
  | none => .badParam

/-- R78, R79: SET_ZONE_MODE. -/
def Device.replySetZoneMode (d : Device) (mask mode : Word) : Reply :=
  match Mode.ofCode mode with
  | none => .badParam
  | some target =>
    if mask = 0 ∨ 4096 ≤ mask.toNat then .badParam
    else match d.modeRefusal mask target with
      | some (z, reason) => .answer .transition [natWord z.val, natWord reason, natWord d.zones[z].mode.code]
      | none => .settled { dev := d.commandZones mask target } Device.modeWords

/-! ## Timers and terms -/

/-- R116: a unit rewritten and reset; its input level is that of its new input condition as it stands before the terms settle on the fall of
the unit's own output; a term that then changes gives the unit an edge (DESIGN CHOICE, log 33). -/
def Device.rewriteTimer (d : Device) (k : Fin 6) (t : Timer) : Device :=
  let d1 := d.setTimer k t
  d1.setTimer k { t with inputLevel := d1.level t.input }

/-- R116, R117: WRITE_TABLE TIMER. -/
def Device.replyWriteTimer (d : Device) (record : Byte) (mode input edge clock n hold : Word) : Reply :=
  match recordIndex 6 record, TimerMode.ofCode mode, EdgeSelect.ofCode edge, ClockSource.ofCode clock with
  | some k, some m, some e, some c =>
    match Cond.ofWord input, Cond.ofWord hold with
    | some i, some h =>
      let t := d.timers[k]
      let words := fun (d' : Device) => [natWord d'.timers[k].n, boolWord d'.timers[k].latchPending]
      if n = 0 then .badParam
      else if t.sameFields m i e c h then
        let d1 := d.setTimer k (t.writeN n.toNat)
        .store d1 (words d1)
      else if d.mailbox.ready then .refused []
      else .settled { dev := d.rewriteTimer k (t.rewritten m i e c n.toNat h) } words
    | _, _ => .badParam
  | _, _, _, _ => .badParam

/-- R118: READ_TABLE TIMER. -/
def Device.replyReadTimer (d : Device) (record : Byte) : Reply :=
  match recordIndex 6 record with
  | some k => .data d.timers[k].configWords
  | none => .badParam

/-- R118: READ_TABLE TIMER_STATE. -/
def Device.replyReadTimerState (d : Device) (record : Byte) : Reply :=
  match recordIndex 6 record with
  | some k => .data (d.timerStateWords k)
  | none => .badParam

/-- R127: a term takes new configuration fields and at once the entry that they select. -/
def Device.rewriteTerm (d : Device) (j : Fin 8) (t : Term) : Device :=
  let d1 := d.setTerm j { t with value := d.terms[j].value, deferred := false }
  let v := d1.selected t
  if v = d.terms[j].value then d1 else d1.changeTerm j v

/-- R126: the record that the parameters of a WRITE_TABLE TERM give, none where one is out of range. -/
def Term.ofWords (j : Fin 8) (a b c d table binding zoneMask eventFlag : Word) : Option Term :=
  match Cond.ofWord a, Cond.ofWord b, Cond.ofWord c, Cond.ofWord d with
  | some a, some b, some c, some d =>
    match Binding.ofCode binding, yesNo eventFlag with
    | some bind, some flag =>
      if a.below j && b.below j && c.below j && d.below j && decide (zoneMask.toNat < 4096) then
        some { a := a, b := b, c := c, d := d, table := table, binding := bind, zoneMask := zoneMask.setWidth 12, eventFlag := flag }
      else none
    | _, _ => none
  | _, _, _, _ => none

/-- R126, R127: WRITE_TABLE TERM. -/
def Device.replyWriteTerm (dev : Device) (record : Byte) (a b c d table binding zoneMask eventFlag : Word) : Reply :=
  if dev.mailbox.ready then .refused []
  else match recordIndex 8 record with
    | none => .badParam
    | some j =>
      match Term.ofWords j a b c d table binding zoneMask eventFlag with
      | none => .badParam
      | some t => .settled { dev := dev.rewriteTerm j t } fun d' => [boolWord d'.terms[j].value]

/-- R128: the words of a term read. -/
def Device.termWords (d : Device) (j : Fin 8) : List Word :=
  let t := d.terms[j]
  [t.a.toWord, t.b.toWord, t.c.toWord, t.d.toWord, t.table, natWord t.binding.code, t.zoneMask.setWidth 16, boolWord t.eventFlag,
    boolWord t.value, natWord (d.entryIndex t), boolWord t.deferred]

/-- R128: READ_TABLE TERM. -/
def Device.replyReadTerm (d : Device) (record : Byte) : Reply :=
  match recordIndex 8 record with
  | some j => .data (d.termWords j)
  | none => .badParam

/-- R132: RESTORE_PERMIT. -/
def Device.replyRestorePermit (d : Device) : Reply :=
  if d.permit = .asserted then .data [0]
  else if d.permitConditions then .store (({ d with permit := .asserted } : Device).raise .permitRestored 0 0) [1]
  else .answer .notReady
    [natWord d.permitReason, natWord (if d.permitReason = 4 then d.lowestTermIndex .fireQualifier false else 0)]

/-! ## Break Monitor -/

/-- R135: WRITE_TABLE BREAK_CONFIG. -/
def Device.replyWriteBreakConfig (d : Device) (record : Byte) (wbrkEnable wbrkActive membership confirmTime : Word) : Reply :=
  match record.toNat, yesNo wbrkEnable, yesNo wbrkActive with
  | 0, some on, some high =>
    if membership.toNat < 256 ∧ confirmTime ≠ 0 then
      .settled
        { dev := { d with monitor := { d.monitor with
            wbrkEnable := on, wbrkActive := high, membership := lowByte membership, confirmTime := confirmTime.toNat } } }
        fun d' => [natWord d'.monitor.state.code]
    else .badParam
  | _, _, _ => .badParam

/-- R135: READ_TABLE BREAK_CONFIG. -/
def Device.replyReadBreakConfig (d : Device) (record : Byte) : Reply :=
  match record.toNat with
  | 0 => .data d.monitor.configWords
  | 1 => .data d.monitorStateWords
  | _ => .badParam

/-- R143: READ_TABLE BREAK_HISTORY. -/
def Device.replyReadBreakHistory (d : Device) (record : Byte) : Reply :=
  if record.toNat < 8 then .data (d.monitor.historyWords record.toNat) else .badParam

/-- R145: ARM_BREAK. -/
def Device.replyArmBreak (d : Device) : Reply :=
  if d.monitor.state ≠ .disarmed then .refused [natWord d.monitor.state.code]
  else match d.armObstacle with
    | some (reason, detail) => .answer .notReady [natWord reason, natWord detail]
    | none => .settled { dev := d.armed } fun _ => [1]

/-- R146: BREAK_NOW. -/
def Device.replyBreakNow (d : Device) : Reply :=
  if d.monitor.state.mayDeclare then .settled (d.declareEffect .command 0) fun _ => [d.monitor.declarations + 1]
  else .refused [natWord d.monitor.state.code]

/-- R147, R148: RESET_BREAK. -/
def Device.replyResetBreak (d : Device) : Reply :=
  if d.monitor.state ≠ .broken then .refused [natWord d.monitor.state.code]
  else match d.resetObstacle with
    | some (source, detail) => .answer .sourceActive [natWord source, natWord detail]
    | none =>
      match d.purgingZone with
      | some z => .answer .purging [natWord z.val, natWord d.zones[z].mode.code]
      | none => .settled { dev := d.endBreak } fun _ => [0]

/-! ## Actuators -/

/-- R162: WRITE_TABLE ACTUATOR, part SOURCE. -/
def Device.replyWriteActuatorSource (d : Device) (record : Byte)
    (sourceKind sourceIndex fixedValue onValue offValue slewMax : Word) : Reply :=
  match recordIndex 16 record, Source.ofCodes sourceKind sourceIndex with
  | some a, some src =>
    if sourceFieldsInRange (unsigned fixedValue) (unsigned onValue) (unsigned offValue) (unsigned slewMax) then
      let x := d.actuators[a].writeSource src (unsigned fixedValue) (unsigned onValue) (unsigned offValue) (unsigned slewMax)
      .store (d.setActuator a x) x.writeWords
    else .badParam
  | _, _ => .badParam

/-- R162: WRITE_TABLE ACTUATOR, part BREAK. -/
def Device.replyWriteActuatorBreak (d : Device) (record : Byte) (action actionValue step delay : Word) : Reply :=
  match recordIndex 16 record, BreakAction.ofCode action with
  | some a, some act =>
    if breakFieldsInRange (unsigned actionValue) (unsigned step) (unsigned delay) then
      let x := d.actuators[a].writeBreak act (unsigned actionValue) (unsigned step) delay.toNat
      .store (d.setActuator a x) x.writeWords
    else .badParam
  | _, _ => .badParam

/-- R163: READ_TABLE ACTUATOR. -/
def Device.replyReadActuator (d : Device) (record : Byte) (part : Word) : Reply :=
  match recordIndex 16 record, part.toNat with
  | some a, 0 => .data d.actuators[a].sourceWords
  | some a, 1 => .data d.actuators[a].breakWords
  | some a, 2 => .data (d.actuatorStateWords a)
  | _, _ => .badParam

/-- R164: SET_OUTPUT. -/
def Device.replySetOutput (d : Device) (actuator value : Word) : Reply :=
  match wordIndex 16 actuator with
  | none => .badParam
  | some a =>
    let x := d.actuators[a]
    if x.source.kind ≠ .fixed then .refused [natWord x.source.kind.code]
    else
      let v := clamp 0 10000 (signed value)
      .store (d.setActuator a { x with fixedValue := v }) [toWord v, boolWord (v != signed value), natWord x.phase.code]

/-! ## Capture Buffer -/

/-- R168: WRITE_TABLE CAPTURE_CONFIG on record 1. -/
def Device.replyWriteCapturePostCount (d : Device) (postCount : Word) : Reply :=
  if inRange 1 511 (unsigned postCount) then
    let c := if d.capture.state = .postfill then { d.capture with latchP := postCount.toNat, latchPending := true }
      else { d.capture with postCount := postCount.toNat, latchPending := false }
    .store { d with capture := c } [natWord c.postCount, boolWord c.latchPending]
  else .badParam

/-- R167: WRITE_TABLE CAPTURE_CONFIG on record 0; the words of a record 1 are a post-count. -/
def Device.replyWriteCaptureConfig (d : Device) (record : Byte) (mode decimation count : Word) (packed : Vector Word 4) : Reply :=
  match record.toNat with
  | 1 => d.replyWriteCapturePostCount mode
  | 0 =>
    match CaptureMode.ofCode mode, captureList count packed with
    | some m, some cs =>
      let c := d.capture
      if inRange 1 256 (unsigned decimation) then
        if c.state.active then .refused [natWord c.state.code]
        else if c.state = .frozen ∧ c.records ≠ [] ∧ cs ≠ c.channels then .refused [4, natWord c.retained]
        else .store { d with capture := { c with mode := m, decimation := decimation.toNat, channels := cs } }
          [natWord c.state.code]
      else .badParam
    | _, _ => .badParam
  | _ => .badParam

/-- R169: READ_TABLE CAPTURE_CONFIG. -/
def Device.replyReadCaptureConfig (d : Device) (record : Byte) : Reply :=
  match record.toNat with
  | 0 => .data d.capture.configWords
  | 1 => .data d.capture.postWords
  | 2 => .data d.capture.stateWords
  | _ => .badParam

/-- R174: the data of an accepted CAPTURE_CONTROL. -/
def Device.captureWords (d : Device) : List Word := d.capture.controlWords

/-- R174: START. -/
def Device.replyCaptureStart (d : Device) : Reply :=
  if !d.mailbox.ready || d.capture.state.active then .refused [natWord d.capture.state.code]
  else .settled { dev := { d with capture := d.capture.started } } Device.captureWords

/-- R174: STOP. -/
def Device.replyCaptureStop (d : Device) : Reply :=
  if !d.mailbox.ready || !d.capture.state.active then .refused [natWord d.capture.state.code]
  else .settled { dev := d.captureStop } Device.captureWords

/-- R174: CLEAR. -/
def Device.replyCaptureClear (d : Device) : Reply :=
  .settled { dev := { d with capture := { d.capture.emptied with state := .idle } } } Device.captureWords

/-- R174: TRIGGER. -/
def Device.replyCaptureTrigger (d : Device) : Reply :=
  if !d.mailbox.ready then .refused [natWord d.capture.state.code]
  else .settled { dev := d.captureTrigger 0 } fun d' => d'.captureWords ++ [boolWord d.capture.state.acceptsTrigger]

/-- R176: READ_CAPTURE. -/
def Device.replyReadCapture (d : Device) : Reply :=
  if d.capture.state.active then .refused [natWord d.capture.state.code]
  else match d.capture.records[d.capture.position]? with
    | none => .answer .empty [natWord d.capture.retained]
    | some r => .store { d with capture := { d.capture with position := d.capture.position + 1 } } r.words

/-- R177: REWIND_CAPTURE. -/
def Device.replyRewindCapture (d : Device) : Reply :=
  .store { d with capture := { d.capture with position := 0 } } [natWord d.capture.retained]

/-! ## Part state and Event Queue -/

/-- R186: the first configuration item that fails, with its two details. -/
def Device.configFault (d : Device) : Option (List Word) :=
  let c := d.speed.speedChannel
  if !d.slotMap.binds .control then some [1, 0, 0]
  else if !d.slotMap.binds (.input c) then some [2, natWord c.val, 0]
  else if d.channels[c].kind ≠ .speed then some [3, natWord c.val, natWord d.channels[c].kind.code]
  else match (List.finRange 12).find? fun z => d.zones[z].enabled && !d.slotMap.binds (.input d.zones[z].measChannel) with
    | some z => some [4, natWord z.val, natWord d.zones[z].measChannel.val]
    | none => if d.capture.channels = [] then some [5, 0, 0] else none

/-- R186: CONFIGURE_DONE. -/
def Device.replyConfigureDone (d : Device) : Reply :=
  if d.mailbox.ready then .refused [1]
  else match d.configFault with
    | some ws => .answer .configInvalid ws
    | none => .store { d with mailbox := { d.mailbox with ready := true } } [1]

/-- R190: the words of an event record. -/
def EventRecord.words (e : EventRecord) : List Word :=
  [packBytes (BitVec.ofNat 8 e.kind.code) e.source, highHalf e.stamp, lowHalf e.stamp, e.value]

/-- R190: up to `n` of the oldest records of a class, and the records that stay, each list in its order. -/
def takeClass (p : Nat) : Nat → List EventRecord → List EventRecord × List EventRecord
  | _, [] => ([], [])
  | 0, es => ([], es)
  | n + 1, e :: es =>
    if e.kind.priority = p then
      let r := takeClass p n es
      (e :: r.1, r.2)
    else
      let r := takeClass p (n + 1) es
      (r.1, e :: r.2)

/-- R190: the records removed and the records that stay. -/
def EventQueue.select (q : EventQueue) (urgent : Bool) : List EventRecord × List EventRecord :=
  if urgent then takeClass q.eventClass 3 q.records else (q.records.take 3, q.records.drop 3)

/-- R190: READ_EVENTS. -/
def Device.replyReadEvents (d : Device) (urgent : Bool) : Reply :=
  let r := d.events.select urgent
  .store { d with events := { d.events with records := r.2 } }
    (natWord (r.1.length + 256 * r.2.length + 16384 * d.events.overrun.toNat) :: r.1.flatMap EventRecord.words)

/-- R191: CLEAR_EVENTS. -/
def Device.replyClearEvents (d : Device) : Reply :=
  .store { d with events := {} } [natWord d.events.records.length]

end Sys2Proof.Machine
end

