-- ==== Sys2Proof/WellFormed.lean ====
section
/-! DEFINITION. When a command's operands name the event of its own row of the table. A command that is not well formed still has the
effect that the device gives the words it carries (log 7). -/

namespace Sys2Proof

/-- R1: the frame kind of W0. -/
def frameKind (w0 : Word) : Byte := w0.extractLsb' 8 8

/-- R1: the kind of a CYCLE frame. -/
def cycleKind : Byte := 0x5C

/-- R183: the codes of the command catalogue. -/
def inCatalogue (code : Byte) : Bool := 1 ≤ code.toNat && code.toNat ≤ 19

/-- The operands of a command fit the row of the table that the command stands for. -/
def Instr.wellFormed : Instr → Bool
  | .cycleFrameW0 w0 => frameKind w0 == cycleKind
  | .nonCycleFrame w0 _ => frameKind w0 != cycleKind
  | .unknownCommand _ code => !inCatalogue code
  | .writeSlotMap _ record _ _ _ => record != 64
  | .writeCaptureConfig _ record _ _ _ _ => record != 1
  | .powerOnReset _ | .rstnFall | .breakWordPassing _ _ | .stageInputSlot _ _ | .stageControlSlot _ _ | .outputSlotPassing _ _
  | .statusSlotPassing _ _ | .stageCommandArea _ _ | .resultAreaPassing _ _ | .crcPassing _ _ _ | .cycleCompletion _ _
  | .captureWindowExpiry _ | .tick | .channelAgeStale _ | .channelAgeFailed _ | .cycleTimeoutExpiry | .purgeExpiry _ | .confirmationExpiry
  | .timerExpiry _ | .markLevelChange _ | .wbrkLevelChange _ | .deferredTermSettle | .actuatorDelayExpiry _ | .identify _ | .readStatus _
  | .writeLinkRecord _ _ _ | .readSlotMap _ _ | .writeChannelScale _ _ _ _ _ _ _ _ | .writeChannelLimits _ _ _ _ _ _ _ _ _
  | .readChannel _ _ _ | .readChannelState _ _ | .writeSpeedConfig _ _ _ _ _ _ _ | .readSpeedConfig _ _ | .writeProfile _ _ _
  | .readProfileShadow _ _ _ | .readProfileActive _ _ _ | .commitProfile _ | .writeZoneSetup _ _ _ _ _ _ _ _ _
  | .writeZoneLoop _ _ _ _ _ _ _ | .writeZoneSafety _ _ _ _ _ _ | .readZone _ _ _ | .readZoneState _ _ | .setZoneMode _ _ _
  | .writeTimer _ _ _ _ _ _ _ _ | .readTimer _ _ | .readTimerState _ _ | .writeTerm _ _ _ _ _ _ _ _ _ _ | .readTerm _ _ | .restorePermit _
  | .writeBreakConfig _ _ _ _ _ _ | .readBreakConfig _ _ | .readBreakHistory _ _ | .armBreak _ | .breakNow _ | .resetBreak _
  | .writeActuatorSource _ _ _ _ _ _ _ _ | .writeActuatorBreak _ _ _ _ _ _ | .readActuator _ _ _ | .setOutput _ _ _
  | .writeCapturePostCount _ _ | .readCaptureConfig _ _ | .captureStart _ | .captureStop _ | .captureClear _ | .captureTriggerCommand _
  | .readCapture _ | .rewindCapture _ | .configureDone _ | .readEventsOldest _ | .readEventsUrgent _ | .clearEvents _ | .softReset _
  | .markFirstAcceptance _ | .wbrkFirstAcceptance _ => true

end Sys2Proof
end

