-- ==== Sys2Proof/Machine/Mailbox.lean ====
section
/-! DEFINITION. The Mailbox (chapter 11): the commands that a command area can spell (R183, R184), their execution (R180), SOFT_RESET (R187)
and the hand-off of a command at a good completion (R179). -/

namespace Sys2Proof.Machine

/-- A mailbox command: what the command area spells, without its tag. -/
inductive Cmd where
  /-- R180: a code outside the catalogue. -/
  | unknown (code : Byte)
  /-- A catalogue code whose table, part, action or order word names nothing: BAD_PARAM (R174, R184, R190). -/
  | invalid (code : Byte)
  | identify
  | readStatus
  | writeSlotMap (record : Byte) (slot roleKind roleIndex : Word)
  | readSlotMap (record : Byte)
  | writeChannelScale (record : Byte) (kind gain offset lo hi alpha : Word)
  | writeChannelLimits (record : Byte) (staleLimit failLimit hiLimit loLimit hyst failState enables : Word)
  | readChannel (record : Byte) (part : Word)
  | readChannelState (record : Byte)
  | writeSpeedConfig (record : Byte) (speedChannel crawlSpeed runSpeed accelBand leadFactor : Word)
  | readSpeedConfig (record : Byte)
  | writeProfile (header : Word) (points : Vector Word 9)
  | readProfileShadow (record : Byte) (first : Word)
  | readProfileActive (record : Byte) (first : Word)
  | commitProfile
  | writeZoneSetup (record : Byte) (enabled measChannel spMin spMax preheatSetpoint rampStep autoTrack : Word)
  | writeZoneLoop (record : Byte) (kp ki outMin outMax slewMax : Word)
  | writeZoneSafety (record : Byte) (overBand purgeOutput faultOutput purgeTime : Word)
  | readZone (record : Byte) (part : Word)
  | readZoneState (record : Byte)
  | setZoneMode (mask mode : Word)
  | writeTimer (record : Byte) (mode input edge clock n hold : Word)
  | readTimer (record : Byte)
  | readTimerState (record : Byte)
  | writeTerm (record : Byte) (a b c d table binding zoneMask eventFlag : Word)
  | readTerm (record : Byte)
  | restorePermit
  | writeBreakConfig (record : Byte) (wbrkEnable wbrkActive membership confirmTime : Word)
  | readBreakConfig (record : Byte)
  | readBreakHistory (record : Byte)
  | armBreak
  | breakNow
  | resetBreak
  | writeActuatorSource (record : Byte) (sourceKind sourceIndex fixedValue onValue offValue slewMax : Word)
  | writeActuatorBreak (record : Byte) (action actionValue step delay : Word)
  | readActuator (record : Byte) (part : Word)
  | setOutput (actuator value : Word)
  /-- R167, R168: a write on record 0 or 1. -/
  | writeCaptureConfig (record : Byte) (mode decimation count : Word) (packed : Vector Word 4)
  | readCaptureConfig (record : Byte)
  | captureStart
  | captureStop
  | captureClear
  | captureTrigger
  | readCapture
  | rewindCapture
  | configureDone
  | readEventsOldest
  | readEventsUrgent
  | clearEvents
  | softReset
  deriving DecidableEq, Repr

/-- R183: the command code, which the result echoes. -/
def Cmd.code : Cmd → Byte
  | .unknown code | .invalid code => code
  | .identify => 1
  | .readStatus => 2
  | .writeSlotMap _ _ _ _ | .writeChannelScale _ _ _ _ _ _ _ | .writeChannelLimits _ _ _ _ _ _ _ _ | .writeSpeedConfig _ _ _ _ _ _
  | .writeZoneSetup _ _ _ _ _ _ _ _ | .writeZoneLoop _ _ _ _ _ _ | .writeZoneSafety _ _ _ _ _ | .writeTimer _ _ _ _ _ _ _
  | .writeTerm _ _ _ _ _ _ _ _ _ | .writeBreakConfig _ _ _ _ _ | .writeActuatorSource _ _ _ _ _ _ _
  | .writeActuatorBreak _ _ _ _ _ | .writeCaptureConfig _ _ _ _ _ => 3
  | .readSlotMap _ | .readChannel _ _ | .readChannelState _ | .readSpeedConfig _ | .readProfileShadow _ _ | .readProfileActive _ _
  | .readZone _ _ | .readZoneState _ | .readTimer _ | .readTimerState _ | .readTerm _ | .readBreakConfig _ | .readBreakHistory _
  | .readActuator _ _ | .readCaptureConfig _ => 4
  | .writeProfile _ _ => 5
  | .commitProfile => 6
  | .configureDone => 7
  | .setZoneMode _ _ => 8
  | .setOutput _ _ => 9
  | .armBreak => 10
  | .resetBreak => 11
  | .breakNow => 12
  | .restorePermit => 13
  | .captureStart | .captureStop | .captureClear | .captureTrigger => 14
  | .readCapture => 15
  | .rewindCapture => 16
  | .readEventsOldest | .readEventsUrgent => 17
  | .clearEvents => 18
  | .softReset => 19

/-- R183: taken in UNCONFIGURED. CAPTURE_CONTROL passes this check, and its own rule refuses every action but CLEAR. -/
def Cmd.takenUnconfigured : Cmd → Bool
  | .setZoneMode _ _ | .setOutput _ _ | .armBreak | .resetBreak | .breakNow | .restorePermit => false
  | _ => true

/-- R184: a WRITE_TABLE by its table and part. -/
def Cmd.ofWrite (p : Nat → Word) : Cmd :=
  let r := lowByte (p 0)
  match (highByte (p 0)).toNat, (p 1).toNat with
  | 1, _ => .writeSlotMap r (p 1) (p 2) (p 3)
  | 2, 0 => .writeChannelScale r (p 2) (p 3) (p 4) (p 5) (p 6) (p 7)
  | 2, 1 => .writeChannelLimits r (p 2) (p 3) (p 4) (p 5) (p 6) (p 7) (p 8)
  | 3, 0 => .writeActuatorSource r (p 2) (p 3) (p 4) (p 5) (p 6) (p 7)
  | 3, 1 => .writeActuatorBreak r (p 2) (p 3) (p 4) (p 5)
  | 4, 0 => .writeZoneSetup r (p 2) (p 3) (p 4) (p 5) (p 6) (p 7) (p 8)
  | 4, 1 => .writeZoneLoop r (p 2) (p 3) (p 4) (p 5) (p 6)
  | 4, 2 => .writeZoneSafety r (p 2) (p 3) (p 4) (p 5)
  | 5, _ => .writeTimer r (p 1) (p 2) (p 3) (p 4) (p 5) (p 6)
  | 6, _ => .writeTerm r (p 1) (p 2) (p 3) (p 4) (p 5) (p 6) (p 7) (p 8)
  | 7, _ => .writeBreakConfig r (p 1) (p 2) (p 3) (p 4)
  | 8, _ => .writeSpeedConfig r (p 1) (p 2) (p 3) (p 4) (p 5)
  | 9, _ => .writeCaptureConfig r (p 1) (p 2) (p 3) #v[p 4, p 5, p 6, p 7]
  | _, _ => .invalid 3

/-- R184: a READ_TABLE by its table. -/
def Cmd.ofRead (p : Nat → Word) : Cmd :=
  let r := lowByte (p 0)
  match (highByte (p 0)).toNat with
  | 1 => .readSlotMap r
  | 2 => .readChannel r (p 1)
  | 3 => .readActuator r (p 1)
  | 4 => .readZone r (p 1)
  | 5 => .readTimer r
  | 6 => .readTerm r
  | 7 => .readBreakConfig r
  | 8 => .readSpeedConfig r
  | 9 => .readCaptureConfig r
  | 10 => .readProfileShadow r (p 1)
  | 11 => .readProfileActive r (p 1)
  | 12 => .readBreakHistory r
  | 13 => .readChannelState r
  | 14 => .readZoneState r
  | 15 => .readTimerState r
  | _ => .invalid 4

/-- R183: the command that a code and the parameter words P0..P9 spell. -/
def Cmd.ofCode (code : Byte) (p : Nat → Word) : Cmd :=
  match code.toNat with
  | 1 => .identify
  | 2 => .readStatus
  | 3 => .ofWrite p
  | 4 => .ofRead p
  | 5 => .writeProfile (p 0) #v[p 1, p 2, p 3, p 4, p 5, p 6, p 7, p 8, p 9]
  | 6 => .commitProfile
  | 7 => .configureDone
  | 8 => .setZoneMode (p 0) (p 1)
  | 9 => .setOutput (p 0) (p 1)
  | 10 => .armBreak
  | 11 => .resetBreak
  | 12 => .breakNow
  | 13 => .restorePermit
  | 14 =>
    match (p 0).toNat with
    | 0 => .captureStart
    | 1 => .captureStop
    | 2 => .captureClear
    | 3 => .captureTrigger
    | _ => .invalid 14
  | 15 => .readCapture
  | 16 => .rewindCapture
  | 17 =>
    match (p 0).toNat with
    | 0 => .readEventsOldest
    | 1 => .readEventsUrgent
    | _ => .invalid 17
  | 18 => .clearEvents
  | 19 => .softReset
  | _ => .unknown code

/-- R116: the command writes a timer record. -/
def Cmd.writesTimer : Cmd → Bool
  | .writeTimer _ _ _ _ _ _ _ => true
  | _ => false

/-- R180, step 3: the reply of the rule that specifies a command. -/
def Device.reply (d : Device) (tag : Byte) : Cmd → Reply
  | .unknown _ => .answer .unknownCommand []
  | .invalid _ => .badParam
  | .identify => d.replyIdentify
  | .readStatus => d.replyReadStatus
  | .writeSlotMap r slot kind index => d.replyWriteSlotMap r slot kind index
  | .readSlotMap r => d.replyReadSlotMap r
  | .writeChannelScale r kind gain offset lo hi alpha => d.replyWriteChannelScale r kind gain offset lo hi alpha
  | .writeChannelLimits r stale fail hi lo hyst failState enables => d.replyWriteChannelLimits r stale fail hi lo hyst failState enables
  | .readChannel r part => d.replyReadChannel r part
  | .readChannelState r => d.replyReadChannelState r
  | .writeSpeedConfig r channel crawl run accel lead => d.replyWriteSpeedConfig r channel crawl run accel lead
  | .readSpeedConfig r => d.replyReadSpeedConfig r
  | .writeProfile header points => d.replyWriteProfile header points
  | .readProfileShadow r first => replyReadBank d.profile.shadow r first
  | .readProfileActive r first => replyReadBank d.profile.active r first
  | .commitProfile => d.replyCommitProfile tag
  | .writeZoneSetup r on channel lo hi preheat ramp auto => d.replyWriteZoneSetup r on channel lo hi preheat ramp auto
  | .writeZoneLoop r kp ki lo hi slew => d.replyWriteZoneLoop r kp ki lo hi slew
  | .writeZoneSafety r band purge fault time => d.replyWriteZoneSafety r band purge fault time
  | .readZone r part => d.replyReadZone r part
  | .readZoneState r => d.replyReadZoneState r
  | .setZoneMode mask mode => d.replySetZoneMode mask mode
  | .writeTimer r mode input edge clock n hold => d.replyWriteTimer r mode input edge clock n hold
  | .readTimer r => d.replyReadTimer r
  | .readTimerState r => d.replyReadTimerState r
  | .writeTerm r a b c e table binding mask flag => d.replyWriteTerm r a b c e table binding mask flag
  | .readTerm r => d.replyReadTerm r
  | .restorePermit => d.replyRestorePermit
  | .writeBreakConfig r enable active membership time => d.replyWriteBreakConfig r enable active membership time
  | .readBreakConfig r => d.replyReadBreakConfig r
  | .readBreakHistory r => d.replyReadBreakHistory r
  | .armBreak => d.replyArmBreak
  | .breakNow => d.replyBreakNow
  | .resetBreak => d.replyResetBreak
  | .writeActuatorSource r kind index fixed on off slew => d.replyWriteActuatorSource r kind index fixed on off slew
  | .writeActuatorBreak r action value step delay => d.replyWriteActuatorBreak r action value step delay
  | .readActuator r part => d.replyReadActuator r part
  | .setOutput actuator value => d.replySetOutput actuator value
  | .writeCaptureConfig r mode decimation count packed => d.replyWriteCaptureConfig r mode decimation count packed
  | .readCaptureConfig r => d.replyReadCaptureConfig r
  | .captureStart => d.replyCaptureStart
  | .captureStop => d.replyCaptureStop
  | .captureClear => d.replyCaptureClear
  | .captureTrigger => d.replyCaptureTrigger
  | .readCapture => d.replyReadCapture
  | .rewindCapture => d.replyRewindCapture
  | .configureDone => d.replyConfigureDone
  | .readEventsOldest => d.replyReadEvents false
  | .readEventsUrgent => d.replyReadEvents true
  | .clearEvents => d.replyClearEvents
  | .softReset => .waits d

/-- R180: the result of a command becomes pending with its effect. -/
def Device.finish (d : Device) (tag code : Byte) : Reply → Device
  | .answer rc data => d.setResult rc tag code data
  | .store d1 data => d1.setResult .ok tag code data
  | .settled e data =>
    let d1 := d.runEffect e
    d1.setResult .ok tag code (data d1)
  | .waits d1 => d1

/-- R180, step 2: the command is refused by the part state. -/
def Device.refusesByPart (d : Device) (c : Cmd) : Bool := !d.mailbox.ready && !c.takenUnconfigured

/-- R180: a command that was taken is executed. -/
def Device.execute (d : Device) (tag : Byte) (c : Cmd) : Device :=
  if d.refusesByPart c then d.setResult .state tag c.code [0xFFFF] else d.finish tag c.code (d.reply tag c)

/-! ## SOFT_RESET -/

/-- R70, R71: a zone at SOFT_RESET. -/
def Zone.softReset (z : Zone) : Zone := { z.toOff with bumpless := false }

/-- R105: every unit takes its input level afresh, after the terms have settled. -/
def Device.takeInputLevels (d : Device) : Device :=
  { d with timers := d.timers.map fun t => { t with inputLevel := d.level t.input } }

/-- R187, step 2: the SOFT_RESET columns of the blocks, before the terms settle. -/
def Device.resetBlocks (d : Device) : Device :=
  { d with
    port := { d.port with
      cycleCount := 0, permitRequest := false, triggerRequest := false, frame := { d.port.frame with staging := {} } }
    speed := d.speed.lose
    profile := { d.profile with commit := none }
    zones := d.zones.map Zone.softReset
    timers := d.timers.map Timer.softReset
    permit := .dropped
    monitor := { d.monitor with state := .disarmed, countdown := 0, suspectTicks := 0 }
    actuators := d.actuators.map Actuator.softReset
    capture := d.capture.softReset
    breakMet := 0 }

/-- R187: SOFT_RESET. The blocks take their values, the terms settle, the units take their input levels, the part becomes UNCONFIGURED with
the Mailbox idle, and RESET_DONE stands alone in the queue. -/
def Device.softReset (d : Device) : Device :=
  let d1 := (settleAtReset d.resetBlocks).takeInputLevels
  ({ d1 with
      mailbox := { d1.mailbox with executing := none, pending := none, written := false, ready := false }
      events := {} } : Device).raise .resetDone 0 0

/-! ## Taking a command -/

/-- R179: the Mailbox can take a command other than SOFT_RESET. -/
def Device.mailboxFree (d : Device) : Bool := d.mailbox.executing.isNone && d.mailbox.pending.isNone

/-- R22, R178: the device serves its mailbox: RSTN is high and its node address is not 0. -/
def Device.takesCommands (d : Device) : Bool := d.lines.rstn && d.mailbox.nodeAddress != 0

/-- R179: a command is handed to the Mailbox at a good completion. -/
def Device.handOff (d : Device) (tag : Byte) (c : Cmd) : Device :=
  if !d.takesCommands then d
  else if c = .softReset then d.softReset
  else if d.mailboxFree then d.execute tag c
  else d

end Sys2Proof.Machine
end

