-- ==== Sys2Proof/Machine/MailboxFamily.lean ====
section
/-! DEFINITION. The meanings of the rows that are mailbox commands (chapter 11): each is the hand-off of that command, with its tag and its
parameter words as received, at a good completion (R179, log 1). -/

namespace Sys2Proof.Machine

/-- R180: UNKNOWN_COMMAND. A code of the catalogue is that command with parameter words 0 (log 7). -/
def execUnknownCommand (tag : Byte) (code : Byte) (s : State) : Host.Outcome State Fault Refusal :=
  s.become (s.dev.handOff tag (Cmd.ofCode code fun _ => 0))

/-- R185: IDENTIFY. -/
def execIdentify (tag : Byte) (s : State) : Host.Outcome State Fault Refusal :=
  s.become (s.dev.handOff tag .identify)

/-- R185: READ_STATUS. -/
def execReadStatus (tag : Byte) (s : State) : Host.Outcome State Fault Refusal :=
  s.become (s.dev.handOff tag .readStatus)

/-- R5: WRITE_SLOT_MAP. -/
def execWriteSlotMap (tag : Byte) (record : Byte) (slot : Word) (roleKind : Word) (roleIndex : Word)
    (s : State) : Host.Outcome State Fault Refusal :=
  s.become (s.dev.handOff tag (.writeSlotMap record slot roleKind roleIndex))

/-- R6: WRITE_LINK_RECORD. It is WRITE_TABLE SLOT_MAP on record 64. -/
def execWriteLinkRecord (tag : Byte) (cycleTimeout : Word) (badLimit : Word)
    (s : State) : Host.Outcome State Fault Refusal :=
  s.become (s.dev.handOff tag (.writeSlotMap 64 cycleTimeout badLimit 0))

/-- R5: READ_SLOT_MAP. -/
def execReadSlotMap (tag : Byte) (record : Byte) (s : State) : Host.Outcome State Fault Refusal :=
  s.become (s.dev.handOff tag (.readSlotMap record))

/-- R26: WRITE_CHANNEL_SCALE. -/
def execWriteChannelScale (tag : Byte) (record : Byte) (kind : Word) (gain : Word) (offset : Word) (lo : Word) (hi : Word) (alpha : Word)
    (s : State) : Host.Outcome State Fault Refusal :=
  s.become (s.dev.handOff tag (.writeChannelScale record kind gain offset lo hi alpha))

/-- R27: WRITE_CHANNEL_LIMITS. -/
def execWriteChannelLimits (tag : Byte) (record : Byte) (staleLimit : Word) (failLimit : Word) (hiLimit : Word) (loLimit : Word) (hyst : Word) (failState : Word) (enables : Word)
    (s : State) : Host.Outcome State Fault Refusal :=
  s.become (s.dev.handOff tag (.writeChannelLimits record staleLimit failLimit hiLimit loLimit hyst failState enables))

/-- R28: READ_CHANNEL. -/
def execReadChannel (tag : Byte) (record : Byte) (part : Word) (s : State) : Host.Outcome State Fault Refusal :=
  s.become (s.dev.handOff tag (.readChannel record part))

/-- R28: READ_CHANNEL_STATE. -/
def execReadChannelState (tag : Byte) (record : Byte) (s : State) : Host.Outcome State Fault Refusal :=
  s.become (s.dev.handOff tag (.readChannelState record))

/-- R43: WRITE_SPEED_CONFIG. -/
def execWriteSpeedConfig (tag : Byte) (record : Byte) (speedChannel : Word) (crawlSpeed : Word) (runSpeed : Word) (accelBand : Word) (leadFactor : Word)
    (s : State) : Host.Outcome State Fault Refusal :=
  s.become (s.dev.handOff tag (.writeSpeedConfig record speedChannel crawlSpeed runSpeed accelBand leadFactor))

/-- R44: READ_SPEED_CONFIG. -/
def execReadSpeedConfig (tag : Byte) (record : Byte) (s : State) : Host.Outcome State Fault Refusal :=
  s.become (s.dev.handOff tag (.readSpeedConfig record))

/-- R56: WRITE_PROFILE. -/
def execWriteProfile (tag : Byte) (header : Word) (points : Vector Word 9) (s : State) : Host.Outcome State Fault Refusal :=
  s.become (s.dev.handOff tag (.writeProfile header points))

/-- R58: READ_PROFILE_SHADOW. -/
def execReadProfileShadow (tag : Byte) (record : Byte) (first : Word) (s : State) : Host.Outcome State Fault Refusal :=
  s.become (s.dev.handOff tag (.readProfileShadow record first))

/-- R58: READ_PROFILE_ACTIVE. -/
def execReadProfileActive (tag : Byte) (record : Byte) (first : Word) (s : State) : Host.Outcome State Fault Refusal :=
  s.become (s.dev.handOff tag (.readProfileActive record first))

/-- R59: COMMIT_PROFILE. -/
def execCommitProfile (tag : Byte) (s : State) : Host.Outcome State Fault Refusal :=
  s.become (s.dev.handOff tag .commitProfile)

/-- R72: WRITE_ZONE_SETUP. -/
def execWriteZoneSetup (tag : Byte) (record : Byte) (enabled : Word) (measChannel : Word) (spMin : Word) (spMax : Word) (preheatSetpoint : Word) (rampStep : Word) (autoTrack : Word)
    (s : State) : Host.Outcome State Fault Refusal :=
  s.become (s.dev.handOff tag (.writeZoneSetup record enabled measChannel spMin spMax preheatSetpoint rampStep autoTrack))

/-- R73: WRITE_ZONE_LOOP. -/
def execWriteZoneLoop (tag : Byte) (record : Byte) (kp : Word) (ki : Word) (outMin : Word) (outMax : Word) (slewMax : Word)
    (s : State) : Host.Outcome State Fault Refusal :=
  s.become (s.dev.handOff tag (.writeZoneLoop record kp ki outMin outMax slewMax))

/-- R74: WRITE_ZONE_SAFETY. -/
def execWriteZoneSafety (tag : Byte) (record : Byte) (overBand : Word) (purgeOutput : Word) (faultOutput : Word) (purgeTime : Word)
    (s : State) : Host.Outcome State Fault Refusal :=
  s.become (s.dev.handOff tag (.writeZoneSafety record overBand purgeOutput faultOutput purgeTime))

/-- R75: READ_ZONE. -/
def execReadZone (tag : Byte) (record : Byte) (part : Word) (s : State) : Host.Outcome State Fault Refusal :=
  s.become (s.dev.handOff tag (.readZone record part))

/-- R75: READ_ZONE_STATE. -/
def execReadZoneState (tag : Byte) (record : Byte) (s : State) : Host.Outcome State Fault Refusal :=
  s.become (s.dev.handOff tag (.readZoneState record))

/-- R78: SET_ZONE_MODE. -/
def execSetZoneMode (tag : Byte) (mask : Word) (mode : Word) (s : State) : Host.Outcome State Fault Refusal :=
  s.become (s.dev.handOff tag (.setZoneMode mask mode))

/-- R116: WRITE_TIMER. -/
def execWriteTimer (tag : Byte) (record : Byte) (mode : Word) (input : Word) (edge : Word) (clock : Word) (n : Word) (hold : Word)
    (s : State) : Host.Outcome State Fault Refusal :=
  s.become (s.dev.handOff tag (.writeTimer record mode input edge clock n hold))

/-- R118: READ_TIMER. -/
def execReadTimer (tag : Byte) (record : Byte) (s : State) : Host.Outcome State Fault Refusal :=
  s.become (s.dev.handOff tag (.readTimer record))

/-- R118: READ_TIMER_STATE. -/
def execReadTimerState (tag : Byte) (record : Byte) (s : State) : Host.Outcome State Fault Refusal :=
  s.become (s.dev.handOff tag (.readTimerState record))

/-- R127: WRITE_TERM. -/
def execWriteTerm (tag : Byte) (record : Byte) (a : Word) (b : Word) (c : Word) (d : Word) (table : Word) (binding : Word) (zoneMask : Word) (eventFlag : Word)
    (s : State) : Host.Outcome State Fault Refusal :=
  s.become (s.dev.handOff tag (.writeTerm record a b c d table binding zoneMask eventFlag))

/-- R128: READ_TERM. -/
def execReadTerm (tag : Byte) (record : Byte) (s : State) : Host.Outcome State Fault Refusal :=
  s.become (s.dev.handOff tag (.readTerm record))

/-- R132: RESTORE_PERMIT. -/
def execRestorePermit (tag : Byte) (s : State) : Host.Outcome State Fault Refusal :=
  s.become (s.dev.handOff tag .restorePermit)

/-- R135: WRITE_BREAK_CONFIG. -/
def execWriteBreakConfig (tag : Byte) (record : Byte) (wbrkEnable : Word) (wbrkActive : Word) (membership : Word) (confirmTime : Word)
    (s : State) : Host.Outcome State Fault Refusal :=
  s.become (s.dev.handOff tag (.writeBreakConfig record wbrkEnable wbrkActive membership confirmTime))

/-- R135: READ_BREAK_CONFIG. -/
def execReadBreakConfig (tag : Byte) (record : Byte) (s : State) : Host.Outcome State Fault Refusal :=
  s.become (s.dev.handOff tag (.readBreakConfig record))

/-- R143: READ_BREAK_HISTORY. -/
def execReadBreakHistory (tag : Byte) (record : Byte) (s : State) : Host.Outcome State Fault Refusal :=
  s.become (s.dev.handOff tag (.readBreakHistory record))

/-- R145: ARM_BREAK. -/
def execArmBreak (tag : Byte) (s : State) : Host.Outcome State Fault Refusal :=
  s.become (s.dev.handOff tag .armBreak)

/-- R146: BREAK_NOW. -/
def execBreakNow (tag : Byte) (s : State) : Host.Outcome State Fault Refusal :=
  s.become (s.dev.handOff tag .breakNow)

/-- R147: RESET_BREAK. -/
def execResetBreak (tag : Byte) (s : State) : Host.Outcome State Fault Refusal :=
  s.become (s.dev.handOff tag .resetBreak)

/-- R162: WRITE_ACTUATOR_SOURCE. -/
def execWriteActuatorSource (tag : Byte) (record : Byte) (sourceKind : Word) (sourceIndex : Word) (fixedValue : Word) (onValue : Word) (offValue : Word) (slewMax : Word)
    (s : State) : Host.Outcome State Fault Refusal :=
  s.become (s.dev.handOff tag (.writeActuatorSource record sourceKind sourceIndex fixedValue onValue offValue slewMax))

/-- R162: WRITE_ACTUATOR_BREAK. -/
def execWriteActuatorBreak (tag : Byte) (record : Byte) (action : Word) (actionValue : Word) (step : Word) (delay : Word)
    (s : State) : Host.Outcome State Fault Refusal :=
  s.become (s.dev.handOff tag (.writeActuatorBreak record action actionValue step delay))

/-- R163: READ_ACTUATOR. -/
def execReadActuator (tag : Byte) (record : Byte) (part : Word) (s : State) : Host.Outcome State Fault Refusal :=
  s.become (s.dev.handOff tag (.readActuator record part))

/-- R164: SET_OUTPUT. -/
def execSetOutput (tag : Byte) (actuator : Word) (value : Word) (s : State) : Host.Outcome State Fault Refusal :=
  s.become (s.dev.handOff tag (.setOutput actuator value))

/-- R167: WRITE_CAPTURE_CONFIG. -/
def execWriteCaptureConfig (tag : Byte) (record : Byte) (mode : Word) (decimation : Word) (count : Word) (packed : Vector Word 4)
    (s : State) : Host.Outcome State Fault Refusal :=
  s.become (s.dev.handOff tag (.writeCaptureConfig record mode decimation count packed))

/-- R168: WRITE_CAPTURE_POST_COUNT. It is WRITE_TABLE CAPTURE_CONFIG on record 1. -/
def execWriteCapturePostCount (tag : Byte) (postCount : Word) (s : State) : Host.Outcome State Fault Refusal :=
  s.become (s.dev.handOff tag (.writeCaptureConfig 1 postCount 0 0 (Vector.replicate 4 0)))

/-- R169: READ_CAPTURE_CONFIG. -/
def execReadCaptureConfig (tag : Byte) (record : Byte) (s : State) : Host.Outcome State Fault Refusal :=
  s.become (s.dev.handOff tag (.readCaptureConfig record))

/-- R174: CAPTURE_START. -/
def execCaptureStart (tag : Byte) (s : State) : Host.Outcome State Fault Refusal :=
  s.become (s.dev.handOff tag .captureStart)

/-- R174: CAPTURE_STOP. -/
def execCaptureStop (tag : Byte) (s : State) : Host.Outcome State Fault Refusal :=
  s.become (s.dev.handOff tag .captureStop)

/-- R174: CAPTURE_CLEAR. -/
def execCaptureClear (tag : Byte) (s : State) : Host.Outcome State Fault Refusal :=
  s.become (s.dev.handOff tag .captureClear)

/-- R174: CAPTURE_TRIGGER_COMMAND. -/
def execCaptureTriggerCommand (tag : Byte) (s : State) : Host.Outcome State Fault Refusal :=
  s.become (s.dev.handOff tag .captureTrigger)

/-- R176: READ_CAPTURE. -/
def execReadCapture (tag : Byte) (s : State) : Host.Outcome State Fault Refusal :=
  s.become (s.dev.handOff tag .readCapture)

/-- R177: REWIND_CAPTURE. -/
def execRewindCapture (tag : Byte) (s : State) : Host.Outcome State Fault Refusal :=
  s.become (s.dev.handOff tag .rewindCapture)

/-- R186: CONFIGURE_DONE. -/
def execConfigureDone (tag : Byte) (s : State) : Host.Outcome State Fault Refusal :=
  s.become (s.dev.handOff tag .configureDone)

/-- R190: READ_EVENTS_OLDEST. -/
def execReadEventsOldest (tag : Byte) (s : State) : Host.Outcome State Fault Refusal :=
  s.become (s.dev.handOff tag .readEventsOldest)

/-- R190: READ_EVENTS_URGENT. -/
def execReadEventsUrgent (tag : Byte) (s : State) : Host.Outcome State Fault Refusal :=
  s.become (s.dev.handOff tag .readEventsUrgent)

/-- R191: CLEAR_EVENTS. -/
def execClearEvents (tag : Byte) (s : State) : Host.Outcome State Fault Refusal :=
  s.become (s.dev.handOff tag .clearEvents)

/-- R187: SOFT_RESET. -/
def execSoftReset (tag : Byte) (s : State) : Host.Outcome State Fault Refusal :=
  s.become (s.dev.handOff tag .softReset)

end Sys2Proof.Machine
end

