-- ==== Sys2Proof/Machine/Schedule.lean ====
section
/-! DEFINITION. The events that come together at one moment: one tick (R21) and one change of the MARK line (R53). Which is taken first is a
choice (log 3), within the orders that the rules fix. -/

namespace Sys2Proof.Machine

/-- R107: a clock from this source for every unit that its clock field gives it to. -/
def Device.clockRoots (d : Device) (source : ClockSource) : List Job :=
  ((List.finRange 6).filter fun k => d.timers[k].clock == source).map fun k => .timerClock k source

/-- R124: the deferred terms, in ascending index. -/
def Device.deferredRoots (d : Device) : List Job :=
  ((List.finRange 8).filter fun j => d.terms[j].deferred).map fun j => .deferredTerm j

/-- R21: what a tick is at each block that counts ticks. -/
def Device.tickRoots (d : Device) : List Job :=
  [.timeoutTick]
    ++ (((List.finRange 32).filter fun c => d.channels[c].validity != .none).map fun c => .channelTick c)
    ++ ((List.finRange 12).map fun z => .zoneTick z)
    ++ [.monitorTick] ++ d.clockRoots .tick ++ d.deferredRoots

/-- Declarations made so far no longer come together with a command (R80): a tick or a frame begins (DESIGN CHOICE, log 27). -/
def Device.forgetBreak (d : Device) : Device := { d with breakMet := 0 }

/-- R21: one tick. -/
def Device.tick (d : Device) : Device := d.forgetBreak.runRoots id d.tickRoots

/-- R53: the accepted MARK level changes; a rise clocks the MARK units. -/
def Device.markChange (d : Device) (level : Bool) : Device :=
  d.runRoots id (.markLevel level :: if level then d.clockRoots .mark else [])

end Sys2Proof.Machine
end

