-- ==== Sys2Proof/Machine/RingPort.lean ====
section
/-! DEFINITION. The Ring Port (chapter 1): the start of a frame (R3, R7, R8), each word of a passage (R8 to R13) with the CRC-32 (R1 Note 1,
R13), the completion (R14 to R18), and the two edges of RSTN (R22). -/

namespace Sys2Proof.Machine

/-! ## CRC-32 (R1 Note 1) -/

/-- R1 Note 1: the generator polynomial without its leading term. -/
def crcPolynomial : BitVec 32 := 0x04C11DB7

/-- One bit into the CRC register. -/
def crcBit (r : BitVec 32) (b : Bool) : BitVec 32 := if r.getLsbD 31 ^^ b then (r <<< 1) ^^^ crcPolynomial else r <<< 1

/-- One word into the CRC register, most significant bit first. -/
def crcWord (r : BitVec 32) (w : Word) : BitVec 32 := (List.range 16).foldl (fun r i => crcBit r (w.getLsbD (15 - i))) r

/-! ## The frame record -/

/-- The word `w` has been received and `out` sent in its place, both under the CRC. -/
def FramePassage.emit (f : FramePassage) (w out : Word) : FramePassage :=
  { f with
    position := f.position + 1, crcIn := crcWord f.crcIn w, crcOut := crcWord f.crcOut out, ringOut := f.ringOut ++ [out] }

/-- R2: the word has been forwarded as received, outside the CRC. -/
def FramePassage.forward (f : FramePassage) (w : Word) : FramePassage :=
  { f with position := f.position + 1, ringOut := f.ringOut ++ [w] }

/-- Replace the frame record. -/
def Device.setFrame (d : Device) (f : FramePassage) : Device := { d with port := { d.port with frame := f } }

/-! ## Where a word stands -/

/-- What the next word of the frame in passage is to the device. -/
inductive Place where
  /-- No frame is in passage. -/
  | outside
  /-- R2, R3: forwarded as received: a frame that is not served, or a word after the last CRC word. -/
  | unserved
  /-- A word that the device only forwards. -/
  | plain
  | breakWord
  | input (c : Fin 32)
  | control
  | output (a : Fin 16)
  | status
  | command
  | resultHead
  | resultRest
  | crcHigh
  | crcLow
  deriving DecidableEq, Repr

/-- R1: the place of word `p` in a frame of slot count `n`, by the Slot Map as it stands. -/
def SlotMap.placeOf (m : SlotMap) (n p : Nat) : Place :=
  if p < 2 then .plain
  else if p = 2 then .breakWord
  else if p < 3 + n then
    match m.roleOf (p - 3) with
    | some (.input c) => .input c
    | some .control => .control
    | some (.output a) => .output a
    | some .status => .status
    | none => .plain
  else if p < 16 + n then .command
  else if p = 16 + n then .resultHead
  else if p < 32 + n then .resultRest
  else if p = 32 + n then .crcHigh
  else if p = 33 + n then .crcLow
  else .unserved

/-- The place of the next word; while RSTN is low nothing is served (R2). -/
def Device.place (d : Device) : Place :=
  match d.port.frame.passage with
  | .idle => .outside
  | .malformed | .transparent => .unserved
  | .cycle n => if d.lines.rstn then d.slotMap.placeOf n d.port.frame.position else .unserved

/-! ## One word -/

/-- A word that is not served passes. -/
def Device.forwardWord (d : Device) (w : Word) : Device := d.setFrame (d.port.frame.forward w)

/-- A word passes and leaves as received. -/
def Device.passPlain (d : Device) (w : Word) : Device := d.setFrame (d.port.frame.emit w w)

/-- R11: the break word as it leaves. -/
def Device.breakWordOut (d : Device) (w : Word) : Word :=
  if d.mailbox.ready && d.monitor.state == .broken then w ||| d.monitor.membership.setWidth 16 else w

/-- R8, R11: W2 passes. -/
def Device.passBreakWord (d : Device) (w : Word) : Device :=
  let f := d.port.frame
  d.setFrame ({ f with staging := { f.staging with breakWord := some w } }.emit w (d.breakWordOut w))

/-- R8: a slot bound INPUT passes. -/
def Device.passInput (d : Device) (c : Fin 32) (w : Word) : Device :=
  let f := d.port.frame
  d.setFrame ({ f with staging := { f.staging with inputs := f.staging.inputs.set c (some w) } }.emit w w)

/-- R8: the slot bound CONTROL passes. -/
def Device.passControl (d : Device) (w : Word) : Device :=
  let f := d.port.frame
  d.setFrame ({ f with staging := { f.staging with control := some w } }.emit w w)

/-- R9, R155: a slot bound OUTPUT passes: in READY its actuator advances, and its value leaves in the slot. -/
def Device.passOutput (d : Device) (a : Fin 16) (w : Word) : Device :=
  if d.mailbox.ready then
    let d1 := d.passActuator a
    d1.setFrame (d1.port.frame.emit w (toWord d1.actuators[a].value))
  else d.passPlain w

/-- R10: the slot bound STATUS passes: in READY the status word leaves in it. -/
def Device.passStatus (d : Device) (w : Word) : Device :=
  d.setFrame (d.port.frame.emit w (if d.mailbox.ready then d.statusWord else w))

/-- R8: a word of the command area passes. -/
def Device.passCommandWord (d : Device) (w : Word) : Device :=
  let f := d.port.frame
  d.setFrame ({ f with staging := { f.staging with command := f.staging.command ++ [w] } }.emit w w)

/-- R12: the words of a result that follow the source node: the result code, the echo word and the data. -/
def MailResult.words (r : MailResult) : List Word :=
  natWord r.code.code :: packBytes r.tag r.command :: r.data.toList

/-- R12: word 0 of the result area passes. -/
def Device.passResultHead (d : Device) (w : Word) : Device :=
  let f := d.port.frame
  match d.mailbox.pending with
  | some r =>
    if w = 0 then
      ({ d with mailbox := { d.mailbox with written := true } } : Device).setFrame
        ({ f with resultWords := r.words }.emit w (d.mailbox.nodeAddress.setWidth 16))
    else d.passPlain w
  | none => d.passPlain w

/-- R12: a further word of the result area passes. -/
def Device.passResultRest (d : Device) (w : Word) : Device :=
  let f := d.port.frame
  match f.resultWords with
  | x :: xs => d.setFrame ({ f with resultWords := xs }.emit w x)
  | [] => d.passPlain w

/-- R13: the high CRC word has been received; what leaves in its place waits for the comparison (log 14). -/
def Device.passCrcHigh (d : Device) (w : Word) : Device :=
  let f := d.port.frame
  d.setFrame { f with position := f.position + 1, crcHigh := some w }

/-- R13: the CRC words that leave: the outgoing CRC, complemented where the incoming one fails. -/
def FramePassage.crcSent (f : FramePassage) (good : Bool) : BitVec 32 := if good then ~~~f.crcOut else f.crcOut

/-- R13: the incoming CRC matches the two received words. -/
def FramePassage.crcMatches (f : FramePassage) (high low : Word) : Bool := high ++ low == ~~~f.crcIn

/-- R13: the low CRC word has been received, and the two outgoing ones leave. -/
def Device.passCrcLow (d : Device) (w : Word) : Device :=
  let f := d.port.frame
  let good := f.crcMatches (f.crcHigh.getD 0) w
  let sent := f.crcSent good
  d.setFrame { f with
    position := f.position + 1, crcHigh := none, crcGood := good, ringOut := f.ringOut ++ [highHalf sent, lowHalf sent] }

/-- A word passes at the place where it stands. -/
def Device.passAt (d : Device) (w : Word) : Place → Device
  | .outside => d
  | .unserved => d.forwardWord w
  | .plain => d.passPlain w
  | .breakWord => d.passBreakWord w
  | .input c => d.passInput c w
  | .control => d.passControl w
  | .output a => d.passOutput a w
  | .status => d.passStatus w
  | .command => d.passCommandWord w
  | .resultHead => d.passResultHead w
  | .resultRest => d.passResultRest w
  | .crcHigh => d.passCrcHigh w
  | .crcLow => d.passCrcLow w

/-- A word passes. -/
def Device.passWord (d : Device) (w : Word) : Device := d.passAt w d.place

/-- Words pass, one after another. -/
def Device.passWords (d : Device) (ws : List Word) : Device := ws.foldl Device.passWord d

/-! ## The start of a frame -/

/-- R7: an OUTPUT entry of this actuator lies at slot `n` or above. -/
def SlotMap.outputBeyond (m : SlotMap) (n : Nat) (a : Fin 16) : Bool :=
  m.entries.toList.any fun e => e.any fun x => x.role == .output a && decide (n ≤ x.slot.val)

/-- R7, R156: the unseen signals of a frame with slot count `n`, in ascending actuator order. -/
def Device.signalAllUnseen (d : Device) (n : Nat) : Device :=
  ((List.finRange 16).filter fun a => d.slotMap.outputBeyond n a).foldl (fun d a => d.signalUnseen n a) d

/-- R1: the slot count that W0 carries. -/
def slotCount (w0 : Word) : Nat := (lowByte w0).toNat

/-- R3: the slot count is one that the device serves. -/
def slotCountServed (n : Nat) : Bool := decide (16 ≤ n) && decide (n ≤ 128)

/-- R3, R8: the frame record after W0 of a frame that is served as `passage`. -/
def startedFrame (passage : Passage) (w0 : Word) : FramePassage := ({ passage := passage } : FramePassage).emit w0 w0

/-- R2, R3, R7, R8: W0 passes. A frame of another kind, and any frame while RSTN is low, is forwarded as received; a CYCLE frame starts
with an empty staging, malformed or with its unseen signals. -/
def Device.beginFrame (d : Device) (w0 : Word) : Device :=
  if !d.lines.rstn || frameKind w0 != cycleKind then d.setFrame (startedFrame .transparent w0)
  else
    let n := slotCount w0
    let d1 := { d.forgetBreak with mailbox := { d.mailbox with written := false } }
    if slotCountServed n then
      let d2 := d1.setFrame (startedFrame (.cycle n) w0)
      if d2.mailbox.ready then d2.signalAllUnseen n else d2
    else d1.setFrame (startedFrame .malformed w0)

/-! ## Completion -/

/-- R3, R13: the frame in passage ends good. -/
def Device.endsGood (d : Device) (lossOfSignal : Bool) : Bool :=
  match d.port.frame.passage with
  | .cycle n => d.port.frame.position == n + 34 && d.port.frame.crcGood && !lossOfSignal
  | .idle | .malformed | .transparent => false

/-- R13: a high CRC word whose low one never came leaves as the word of a bad frame (log 14). -/
def FramePassage.flushCrc (f : FramePassage) : FramePassage :=
  match f.crcHigh with
  | some _ => { f with crcHigh := none, ringOut := f.ringOut ++ [highHalf (f.crcSent false)] }
  | none => f

/-- R14, R15, R16, R17: what every completion does at the Ring Port and at the Mailbox's pending result: the cycle count, the countdown, the
end of the frame with its staging, and the delivery of a result written into a good frame. -/
def Device.closeFrame (d : Device) (good : Bool) : Device :=
  let f := d.port.frame.flushCrc
  { d with
    port := { d.port with
      cycleCount := d.port.cycleCount + 1, timeoutCountdown := d.slotMap.cycleTimeout
      frame := { f with passage := .idle, resultWords := [], staging := {} } }
    mailbox := { d.mailbox with
      pending := if good && d.mailbox.written then none else d.mailbox.pending
      written := false } }

/-- R16, R29: the channels that receive a sample, with their raw words, in ascending index. -/
def Staging.samples (s : Staging) : List (Fin 32 × Word) :=
  (List.finRange 32).filterMap fun c => s.inputs[c].map fun w => (c, w)

/-- R36: a channel took a non-fault sample. -/
def Staging.arrives (s : Staging) (c : Fin 32) : Bool := s.inputs[c].any fun w => w != sensorFault

/-- R16, R179: the command that a completion hands to the Mailbox, with its tag: one for this node, which is not node 0. -/
def Device.stagedCommand (d : Device) (s : Staging) : Option (Byte × Cmd) :=
  match s.command with
  | node :: code :: tag :: _ =>
    if node = d.mailbox.nodeAddress.setWidth 16 ∧ d.mailbox.nodeAddress ≠ 0 then
      some (lowByte tag, Cmd.ofCode (lowByte code) (paramOf s.command))
    else none
  | _ => none

/-- R14, R170: the recording of a completion; a buffer that stays inactive through the completion has none to make. -/
def Device.recordRoots (d : Device) (good : Bool) (command : Option (Byte × Cmd)) : List Job :=
  if d.capture.state.active || command.any (fun c => c.2.code == 14) then [.captureRecord good] else []

/-- R107, R119: the CYCLE clock of a completion at its units. Where the completion brings a WRITE_TIMER, which may move a unit's clock field to or
from CYCLE before the clock is taken, the clock waits at every unit, and the field as it then stands decides (log 28). -/
def Device.cycleRoots (d : Device) (command : Option (Byte × Cmd)) : List Job :=
  if command.any (fun c => c.2.writesTimer) then (List.finRange 6).map fun k => .timerClock k .cycle else d.clockRoots .cycle

/-- R16, R36, R45: the deliveries of a good frame. -/
def Device.deliveryRoots (d : Device) (s : Staging) : List Job :=
  s.samples.map (fun p => .channelSample p.1 p.2)
    ++ (if s.arrives d.speed.speedChannel then [.speedSample] else [])
    ++ (((List.finRange 12).filter fun z => s.arrives d.zones[z].measChannel).map fun z => .zoneArrival z)
    ++ (match s.control with
        | some w => [.controlWord w]
        | none => [])
    ++ (match s.breakWord with
        | some w => [.breakWord w]
        | none => [])

/-- R14, R16, R17: what a completion is at each block; `d` is the device after `closeFrame`, `s` what the frame had staged, `command` the
command that it brings. -/
def Device.completionRoots (d : Device) (good : Bool) (s : Staging) (command : Option (Byte × Cmd)) : List Job :=
  [if good then .linkGood else .linkBad]
    ++ (if good then d.deliveryRoots s else [])
    ++ d.cycleRoots command ++ d.recordRoots good command
    ++ (if command.isSome then [.command] else [])

/-- R16, R179: the command that a completion brings is handed to the Mailbox. -/
def Device.handStaged (command : Option (Byte × Cmd)) (d : Device) : Device :=
  match command with
  | some c => d.handOff c.1 c.2
  | none => d

/-- R14: a completion of this goodness. A command that it brings finds the link as this completion has left it (R19, R132), also where a tick
just before has expired the cycle timeout: a RESTORE_PERMIT in that frame then finds the link LOCKED again, although R133 has the fall that
comes first refuse it (DESIGN CHOICE, log 39). -/
def Device.complete (d : Device) (good : Bool) : Device :=
  let d1 := d.closeFrame good
  let s := d.port.frame.staging
  let command := if good then d1.stagedCommand s else none
  d1.runRoots (Device.handStaged command) (d1.completionRoots good s command)

/-- R2, R3, R14: a frame ends. Only a CYCLE frame that the device has served since its W0 has a completion. -/
def Device.endFrame (d : Device) (lossOfSignal : Bool) : Device :=
  match d.port.frame.passage with
  | .idle => d
  | .transparent => d.setFrame { d.port.frame with passage := .idle }
  | .malformed | .cycle _ => if d.lines.rstn then d.complete (d.endsGood lossOfSignal) else d.setFrame { d.port.frame with passage := .idle }

/-! ## RSTN -/

/-- R22: the rest of a frame in passage is forwarded as received; a high CRC word that waits leaves as received. -/
def FramePassage.released (f : FramePassage) : FramePassage :=
  match f.passage with
  | .idle => f
  | .cycle _ | .malformed | .transparent =>
    { f with passage := .transparent, crcHigh := none, ringOut := f.ringOut ++ f.crcHigh.toList }

/-- R2, R22: RSTN falls. -/
def Device.rstnFalls (d : Device) : Device :=
  ({ d with lines := { d.lines with rstn := false } } : Device).setFrame d.port.frame.released

/-- R22: RSTN rises: every block takes its power-on values; a frame that is passing goes on as received. The choices of the model (log 3)
go on. -/
def Device.rstnRises (d : Device) (straps : BitVec 5) : Device :=
  let f := d.port.frame.released
  let d1 := { Device.atPowerOn straps with choices := d.choices }
  match f.passage with
  | .idle => d1
  | .cycle _ | .malformed | .transparent => d1.setFrame { passage := .transparent, position := f.position, ringOut := f.ringOut }

end Sys2Proof.Machine
end

