-- ==== Sys2Proof/Machine/RingFamily.lean ====
section
/-! DEFINITION. The meanings of the rows that are events of the ring link and of RSTN (chapter 1). A row that names a word passes the
skipped words first and then that word at the place where it then stands: the frame layout and the Slot Map decide the place, not the
row's name (log 7). -/

namespace Sys2Proof.Machine

/-- R22, R178: POWER_ON_RESET. -/
def execPowerOnReset (straps : BitVec 5) (s : State) : Host.Outcome State Fault Refusal := s.become (s.dev.rstnRises straps)

/-- R2, R22: RSTN_FALL. -/
def execRstnFall (s : State) : Host.Outcome State Fault Refusal := s.become s.dev.rstnFalls

/-- R2: NON_CYCLE_FRAME: a whole frame of another kind passes and ends without a completion. -/
def execNonCycleFrame (w0 : Word) (rest : List Word) (s : State) : Host.Outcome State Fault Refusal :=
  let d := (s.dev.beginFrame w0).passWords rest
  s.become (match d.port.frame.passage with
    | .transparent => d.endFrame false
    | .idle | .cycle _ | .malformed => d)

/-- R3, R7, R8: CYCLE_FRAME_W0. -/
def execCycleFrameW0 (w0 : Word) (s : State) : Host.Outcome State Fault Refusal := s.become (s.dev.beginFrame w0)

/-- R8, R11: BREAK_WORD_PASSING. -/
def execBreakWordPassing (skipped : List Word) (w : Word) (s : State) : Host.Outcome State Fault Refusal :=
  let d := s.dev.passWords skipped
  s.become (if d.place = .breakWord then d.passBreakWord w else d.passWord w)

/-- R8: STAGE_INPUT_SLOT. -/
def execStageInputSlot (skipped : List Word) (w : Word) (s : State) : Host.Outcome State Fault Refusal :=
  let d := s.dev.passWords skipped
  s.become (match d.place with
    | .input c => d.passInput c w
    | p => d.passAt w p)

/-- R8: STAGE_CONTROL_SLOT. -/
def execStageControlSlot (skipped : List Word) (w : Word) (s : State) : Host.Outcome State Fault Refusal :=
  let d := s.dev.passWords skipped
  s.become (if d.place = .control then d.passControl w else d.passWord w)

/-- R9, R155: OUTPUT_SLOT_PASSING. -/
def execOutputSlotPassing (skipped : List Word) (w : Word) (s : State) : Host.Outcome State Fault Refusal :=
  let d := s.dev.passWords skipped
  s.become (match d.place with
    | .output a => d.passOutput a w
    | p => d.passAt w p)

/-- R10: STATUS_SLOT_PASSING. -/
def execStatusSlotPassing (skipped : List Word) (w : Word) (s : State) : Host.Outcome State Fault Refusal :=
  let d := s.dev.passWords skipped
  s.become (if d.place = .status then d.passStatus w else d.passWord w)

/-- R8: STAGE_COMMAND_AREA. -/
def execStageCommandArea (skipped : List Word) (area : Vector Word 13) (s : State) : Host.Outcome State Fault Refusal :=
  s.become ((s.dev.passWords skipped).passWords area.toList)

/-- R12: RESULT_AREA_PASSING. -/
def execResultAreaPassing (skipped : List Word) (w : Word) (s : State) : Host.Outcome State Fault Refusal :=
  let d := s.dev.passWords skipped
  s.become (if d.place = .resultHead then d.passResultHead w else d.passWord w)

/-- R13: CRC_PASSING. -/
def execCrcPassing (skipped : List Word) (high low : Word) (s : State) : Host.Outcome State Fault Refusal :=
  let d := s.dev.passWords skipped
  s.become (if d.place = .crcHigh then (d.passCrcHigh high).passWord low else d.passWords [high, low])

/-- R3, R14 to R19: CYCLE_COMPLETION. -/
def execCycleCompletion (skipped : List Word) (lossOfSignal : Bool) (s : State) : Host.Outcome State Fault Refusal :=
  s.become ((s.dev.passWords skipped).endFrame lossOfSignal)

end Sys2Proof.Machine
end

