-- ==== Sys2Proof/Machine/TimeFamily.lean ====
section
/-! DEFINITION. The meanings of the rows that are ticks, expiries and line transitions. TICK is one tick at every block. A row that names an
expiry at one unit is the tick, clock, passing or recording at that unit alone, where it brings that expiry about; where it would not, or
while RSTN is low, the event does not occur and nothing changes (log 9). -/

namespace Sys2Proof.Machine

/-- An event that occurs only while RSTN is high (R21, R22) and only where `occurs` holds. -/
def Device.occur (d : Device) (occurs : Bool) (after : Device) : Device := if d.lines.rstn && occurs then after else d

/-- R171: this recording ends a WINDOW post countdown. -/
def Device.windowEnds (d : Device) : Bool :=
  d.capture.state == .postfill && d.capture.mode == .window && d.capture.counter == 0 && decide (d.capture.countdown ≤ 1)

/-- R171: CAPTURE_WINDOW_EXPIRY. -/
def execCaptureWindowExpiry (good : Bool) (s : State) : Host.Outcome State Fault Refusal :=
  s.become (s.dev.occur s.dev.windowEnds (s.dev.runJob (.captureRecord good)))

/-- R21: TICK. -/
def execTick (s : State) : Host.Outcome State Fault Refusal := s.become (s.dev.occur true s.dev.tick)

/-- R37: the next tick brings the channel to this validity. -/
def Device.agesTo (d : Device) (c : Fin 32) (v : Validity) : Bool := d.channels[c].tickValidities.contains v

/-- R37: CHANNEL_AGE_STALE. -/
def execChannelAgeStale (c : Fin 32) (s : State) : Host.Outcome State Fault Refusal :=
  s.become (s.dev.occur (s.dev.agesTo c .stale) (s.dev.runJob (.channelTick c)))

/-- R37: CHANNEL_AGE_FAILED. -/
def execChannelAgeFailed (c : Fin 32) (s : State) : Host.Outcome State Fault Refusal :=
  s.become (s.dev.occur (s.dev.agesTo c .failed) (s.dev.runJob (.channelTick c)))

/-- R15, R19: CYCLE_TIMEOUT_EXPIRY. -/
def execCycleTimeoutExpiry (s : State) : Host.Outcome State Fault Refusal :=
  s.become (s.dev.occur (s.dev.port.timeoutCountdown == 1) (s.dev.runJob .timeoutTick))

/-- R89, R90: PURGE_EXPIRY. -/
def execPurgeExpiry (z : Fin 12) (s : State) : Host.Outcome State Fault Refusal :=
  s.become (s.dev.occur s.dev.zones[z].purgeEnds (s.dev.runJob (.zoneTick z)))

/-- R140: the next tick ends the confirmation countdown. -/
def Monitor.confirmationEnds (m : Monitor) : Bool := m.state == .suspect && decide (m.countdown ≤ 1)

/-- R140: CONFIRMATION_EXPIRY. -/
def execConfirmationExpiry (s : State) : Host.Outcome State Fault Refusal :=
  s.become (s.dev.occur s.dev.monitor.confirmationEnds (s.dev.runJob .monitorTick))

/-- R107, R114: a clock of this source can arrive by itself: a CASCADE unit takes a clock only from the unit before it, within that unit's own
expiry, and a MARK unit takes none until the MARK level has been accepted. -/
def Device.clockArrives (d : Device) : ClockSource → Bool
  | .tick | .cycle => true
  | .mark => d.lines.mark.isSome
  | .cascade => false

/-- R114: a clock of the unit's own source can arrive, and is its expiry. -/
def Device.timerExpires (d : Device) (k : Fin 6) : Bool :=
  d.clockArrives d.timers[k].clock && (d.clockTimer k d.timers[k].clock).2

/-- R114: TIMER_EXPIRY. -/
def execTimerExpiry (k : Fin 6) (s : State) : Host.Outcome State Fault Refusal :=
  s.become (s.dev.occur (s.dev.timerExpires k) (s.dev.runJob (.timerClock k s.dev.timers[k].clock)))

/-- R53: MARK_LEVEL_CHANGE: a change after the first acceptance. -/
def execMarkLevelChange (level : Bool) (s : State) : Host.Outcome State Fault Refusal :=
  s.become (s.dev.occur (s.dev.lines.mark == some !level) (s.dev.markChange level))

/-- R121, R136: WBRK_LEVEL_CHANGE. -/
def execWbrkLevelChange (level : Bool) (s : State) : Host.Outcome State Fault Refusal :=
  s.become (s.dev.occur (s.dev.lines.wbrk == some !level) (s.dev.runJob (.wbrkLevel level)))

/-- R124: DEFERRED_TERM_SETTLE: the tick at the deferred terms, in ascending index. -/
def execDeferredTermSettle (s : State) : Host.Outcome State Fault Refusal :=
  s.become (s.dev.occur true (s.dev.runRoots id s.dev.deferredRoots))

/-- R159: the next passing presented ends the actuator's break delay. -/
def Actuator.delayEnds (a : Actuator) : Bool := a.phase == .delaying && decide (a.countdown ≤ 1)

/-- R4, R155, R159: a passing is presented only to an actuator that an OUTPUT entry binds, and only in READY (R9). -/
def Device.delayExpires (d : Device) (a : Fin 16) : Bool :=
  d.mailbox.ready && d.slotMap.binds (.output a) && d.actuators[a].delayEnds

/-- R155, R159: ACTUATOR_DELAY_EXPIRY. -/
def execActuatorDelayExpiry (a : Fin 16) (s : State) : Host.Outcome State Fault Refusal :=
  s.become (s.dev.occur (s.dev.delayExpires a) (s.dev.passActuator a))

/-- R106: a unit takes its input level without an edge; a COUNT unit acts on the level itself (R113). -/
def Timer.takeLevel (t : Timer) (level : Bool) : Timer :=
  match t.mode with
  | .count => t.takeEdge level
  | .delay | .oneShot | .gap | .edge => { t with inputLevel := level }

/-- R52, R121: the first acceptance of a line sets the level without an edge: a unit that reads the line's condition takes its input level
afresh (log 12), and the terms settle on it. -/
def Device.firstAcceptance (d : Device) (lines : Lines) (c : Cond) (level : Bool) : Effect :=
  { dev := { d with lines := lines, timers := d.timers.map fun t => if t.input = c then t.takeLevel level else t } }

/-- R52: MARK_FIRST_ACCEPTANCE. -/
def execMarkFirstAcceptance (level : Bool) (s : State) : Host.Outcome State Fault Refusal :=
  s.become (s.dev.occur s.dev.lines.mark.isNone
    (s.dev.runEffect (s.dev.firstAcceptance { s.dev.lines with mark := some level } .markLevel level)))

/-- R121, R136: WBRK_FIRST_ACCEPTANCE. R121 makes no change of it; the WBRK source is active from then on (R136), and where that raises the
hard level the Monitor sees the rise, and declares in ARMED or SUSPECT (DESIGN CHOICE, log 32). -/
def execWbrkFirstAcceptance (level : Bool) (s : State) : Host.Outcome State Fault Refusal :=
  s.become (s.dev.occur s.dev.lines.wbrk.isNone
    (s.dev.runEffect (s.dev.firstAcceptance { s.dev.lines with wbrk := some level } .wbrkLevel level)))

end Sys2Proof.Machine
end

