-- ==== Sys2Proof/Machine/Dispatch.lean ====
section
/-! DEFINITION. The meaning of every command, one arm for each row of the table. -/

namespace Sys2Proof.Machine

def exec (i : Instr) (s : State) : Host.Outcome State Fault Refusal :=
  match i with
  | .powerOnReset straps => Sys2Proof.Machine.execPowerOnReset straps s
  | .rstnFall => Sys2Proof.Machine.execRstnFall s
  | .nonCycleFrame w0 rest => Sys2Proof.Machine.execNonCycleFrame w0 rest s
  | .cycleFrameW0 w0 => Sys2Proof.Machine.execCycleFrameW0 w0 s
  | .breakWordPassing skipped w => Sys2Proof.Machine.execBreakWordPassing skipped w s
  | .stageInputSlot skipped w => Sys2Proof.Machine.execStageInputSlot skipped w s
  | .stageControlSlot skipped w => Sys2Proof.Machine.execStageControlSlot skipped w s
  | .outputSlotPassing skipped w => Sys2Proof.Machine.execOutputSlotPassing skipped w s
  | .statusSlotPassing skipped w => Sys2Proof.Machine.execStatusSlotPassing skipped w s
  | .stageCommandArea skipped area => Sys2Proof.Machine.execStageCommandArea skipped area s
  | .resultAreaPassing skipped w => Sys2Proof.Machine.execResultAreaPassing skipped w s
  | .crcPassing skipped high low => Sys2Proof.Machine.execCrcPassing skipped high low s
  | .cycleCompletion skipped lossOfSignal => Sys2Proof.Machine.execCycleCompletion skipped lossOfSignal s
  | .captureWindowExpiry good => Sys2Proof.Machine.execCaptureWindowExpiry good s
  | .tick => Sys2Proof.Machine.execTick s
  | .channelAgeStale c => Sys2Proof.Machine.execChannelAgeStale c s
  | .channelAgeFailed c => Sys2Proof.Machine.execChannelAgeFailed c s
  | .cycleTimeoutExpiry => Sys2Proof.Machine.execCycleTimeoutExpiry s
  | .purgeExpiry z => Sys2Proof.Machine.execPurgeExpiry z s
  | .confirmationExpiry => Sys2Proof.Machine.execConfirmationExpiry s
  | .timerExpiry k => Sys2Proof.Machine.execTimerExpiry k s
  | .markLevelChange level => Sys2Proof.Machine.execMarkLevelChange level s
  | .wbrkLevelChange level => Sys2Proof.Machine.execWbrkLevelChange level s
  | .deferredTermSettle => Sys2Proof.Machine.execDeferredTermSettle s
  | .actuatorDelayExpiry a => Sys2Proof.Machine.execActuatorDelayExpiry a s
  | .unknownCommand tag code => Sys2Proof.Machine.execUnknownCommand tag code s
  | .identify tag => Sys2Proof.Machine.execIdentify tag s
  | .readStatus tag => Sys2Proof.Machine.execReadStatus tag s
  | .writeSlotMap tag record slot roleKind roleIndex => Sys2Proof.Machine.execWriteSlotMap tag record slot roleKind roleIndex s
  | .writeLinkRecord tag cycleTimeout badLimit => Sys2Proof.Machine.execWriteLinkRecord tag cycleTimeout badLimit s
  | .readSlotMap tag record => Sys2Proof.Machine.execReadSlotMap tag record s
  | .writeChannelScale tag record kind gain offset lo hi alpha => Sys2Proof.Machine.execWriteChannelScale tag record kind gain offset lo hi alpha s
  | .writeChannelLimits tag record staleLimit failLimit hiLimit loLimit hyst failState enables => Sys2Proof.Machine.execWriteChannelLimits tag record staleLimit failLimit hiLimit loLimit hyst failState enables s
  | .readChannel tag record part => Sys2Proof.Machine.execReadChannel tag record part s
  | .readChannelState tag record => Sys2Proof.Machine.execReadChannelState tag record s
  | .writeSpeedConfig tag record speedChannel crawlSpeed runSpeed accelBand leadFactor => Sys2Proof.Machine.execWriteSpeedConfig tag record speedChannel crawlSpeed runSpeed accelBand leadFactor s
  | .readSpeedConfig tag record => Sys2Proof.Machine.execReadSpeedConfig tag record s
  | .writeProfile tag header points => Sys2Proof.Machine.execWriteProfile tag header points s
  | .readProfileShadow tag record first => Sys2Proof.Machine.execReadProfileShadow tag record first s
  | .readProfileActive tag record first => Sys2Proof.Machine.execReadProfileActive tag record first s
  | .commitProfile tag => Sys2Proof.Machine.execCommitProfile tag s
  | .writeZoneSetup tag record enabled measChannel spMin spMax preheatSetpoint rampStep autoTrack => Sys2Proof.Machine.execWriteZoneSetup tag record enabled measChannel spMin spMax preheatSetpoint rampStep autoTrack s
  | .writeZoneLoop tag record kp ki outMin outMax slewMax => Sys2Proof.Machine.execWriteZoneLoop tag record kp ki outMin outMax slewMax s
  | .writeZoneSafety tag record overBand purgeOutput faultOutput purgeTime => Sys2Proof.Machine.execWriteZoneSafety tag record overBand purgeOutput faultOutput purgeTime s
  | .readZone tag record part => Sys2Proof.Machine.execReadZone tag record part s
  | .readZoneState tag record => Sys2Proof.Machine.execReadZoneState tag record s
  | .setZoneMode tag mask mode => Sys2Proof.Machine.execSetZoneMode tag mask mode s
  | .writeTimer tag record mode input edge clock n hold => Sys2Proof.Machine.execWriteTimer tag record mode input edge clock n hold s
  | .readTimer tag record => Sys2Proof.Machine.execReadTimer tag record s
  | .readTimerState tag record => Sys2Proof.Machine.execReadTimerState tag record s
  | .writeTerm tag record a b c d table binding zoneMask eventFlag => Sys2Proof.Machine.execWriteTerm tag record a b c d table binding zoneMask eventFlag s
  | .readTerm tag record => Sys2Proof.Machine.execReadTerm tag record s
  | .restorePermit tag => Sys2Proof.Machine.execRestorePermit tag s
  | .writeBreakConfig tag record wbrkEnable wbrkActive membership confirmTime => Sys2Proof.Machine.execWriteBreakConfig tag record wbrkEnable wbrkActive membership confirmTime s
  | .readBreakConfig tag record => Sys2Proof.Machine.execReadBreakConfig tag record s
  | .readBreakHistory tag record => Sys2Proof.Machine.execReadBreakHistory tag record s
  | .armBreak tag => Sys2Proof.Machine.execArmBreak tag s
  | .breakNow tag => Sys2Proof.Machine.execBreakNow tag s
  | .resetBreak tag => Sys2Proof.Machine.execResetBreak tag s
  | .writeActuatorSource tag record sourceKind sourceIndex fixedValue onValue offValue slewMax => Sys2Proof.Machine.execWriteActuatorSource tag record sourceKind sourceIndex fixedValue onValue offValue slewMax s
  | .writeActuatorBreak tag record action actionValue step delay => Sys2Proof.Machine.execWriteActuatorBreak tag record action actionValue step delay s
  | .readActuator tag record part => Sys2Proof.Machine.execReadActuator tag record part s
  | .setOutput tag actuator value => Sys2Proof.Machine.execSetOutput tag actuator value s
  | .writeCaptureConfig tag record mode decimation count packed => Sys2Proof.Machine.execWriteCaptureConfig tag record mode decimation count packed s
  | .writeCapturePostCount tag postCount => Sys2Proof.Machine.execWriteCapturePostCount tag postCount s
  | .readCaptureConfig tag record => Sys2Proof.Machine.execReadCaptureConfig tag record s
  | .captureStart tag => Sys2Proof.Machine.execCaptureStart tag s
  | .captureStop tag => Sys2Proof.Machine.execCaptureStop tag s
  | .captureClear tag => Sys2Proof.Machine.execCaptureClear tag s
  | .captureTriggerCommand tag => Sys2Proof.Machine.execCaptureTriggerCommand tag s
  | .readCapture tag => Sys2Proof.Machine.execReadCapture tag s
  | .rewindCapture tag => Sys2Proof.Machine.execRewindCapture tag s
  | .configureDone tag => Sys2Proof.Machine.execConfigureDone tag s
  | .readEventsOldest tag => Sys2Proof.Machine.execReadEventsOldest tag s
  | .readEventsUrgent tag => Sys2Proof.Machine.execReadEventsUrgent tag s
  | .clearEvents tag => Sys2Proof.Machine.execClearEvents tag s
  | .softReset tag => Sys2Proof.Machine.execSoftReset tag s
  | .markFirstAcceptance level => Sys2Proof.Machine.execMarkFirstAcceptance level s
  | .wbrkFirstAcceptance level => Sys2Proof.Machine.execWbrkFirstAcceptance level s

end Sys2Proof.Machine
end

