-- ==== Sys2Proof/Safety.lean ====
section
/-! DEFINITION. What a safe run keeps, in the terms that the statements use: the permit's conditions (R130), the capacities (R42, R143, R166,
R188), the commit's wait (R62, R178), the ranges of outputs and setpoints (R71 to R74, R152), the curves (R55, R56), the Slot Map (R4), the
terms (R122, R123), the timer units (R104), the Break Monitor (R134, R140, R157) and the part state (R130, R134, chapter 11.3); and the
premises and relations that several statements share (R3, R88, R122, R179, R183, R188). -/

namespace Sys2Proof

/-- The command is a mailbox command other than SOFT_RESET: the Mailbox takes it only while it is free (R179). -/
def Instr.waitsForMailbox : Instr → Bool
  | .powerOnReset _ | .rstnFall | .nonCycleFrame _ _ | .cycleFrameW0 _ | .breakWordPassing _ _ | .stageInputSlot _ _
  | .stageControlSlot _ _ | .outputSlotPassing _ _ | .statusSlotPassing _ _ | .stageCommandArea _ _ | .resultAreaPassing _ _
  | .crcPassing _ _ _ | .cycleCompletion _ _ | .captureWindowExpiry _ | .tick | .channelAgeStale _ | .channelAgeFailed _
  | .cycleTimeoutExpiry | .purgeExpiry _ | .confirmationExpiry | .timerExpiry _ | .markLevelChange _ | .wbrkLevelChange _
  | .deferredTermSettle | .actuatorDelayExpiry _ | .markFirstAcceptance _ | .wbrkFirstAcceptance _ | .softReset _ => false
  | .unknownCommand _ code => code != 19
  | .identify _ | .readStatus _ | .writeSlotMap _ _ _ _ _ | .writeLinkRecord _ _ _ | .readSlotMap _ _ | .writeChannelScale _ _ _ _ _ _ _ _
  | .writeChannelLimits _ _ _ _ _ _ _ _ _ | .readChannel _ _ _ | .readChannelState _ _ | .writeSpeedConfig _ _ _ _ _ _ _
  | .readSpeedConfig _ _ | .writeProfile _ _ _ | .readProfileShadow _ _ _ | .readProfileActive _ _ _ | .commitProfile _
  | .writeZoneSetup _ _ _ _ _ _ _ _ _ | .writeZoneLoop _ _ _ _ _ _ _ | .writeZoneSafety _ _ _ _ _ _ | .readZone _ _ _ | .readZoneState _ _
  | .setZoneMode _ _ _ | .writeTimer _ _ _ _ _ _ _ _ | .readTimer _ _ | .readTimerState _ _ | .writeTerm _ _ _ _ _ _ _ _ _ _ | .readTerm _ _
  | .restorePermit _ | .writeBreakConfig _ _ _ _ _ _ | .readBreakConfig _ _ | .readBreakHistory _ _ | .armBreak _ | .breakNow _
  | .resetBreak _ | .writeActuatorSource _ _ _ _ _ _ _ _ | .writeActuatorBreak _ _ _ _ _ _ | .readActuator _ _ _ | .setOutput _ _ _
  | .writeCaptureConfig _ _ _ _ _ _ | .writeCapturePostCount _ _ | .readCaptureConfig _ _ | .captureStart _ | .captureStop _
  | .captureClear _ | .captureTriggerCommand _ | .readCapture _ | .rewindCapture _ | .configureDone _ | .readEventsOldest _
  | .readEventsUrgent _ | .clearEvents _ => true

/-- The command is a tick, an expiry or a transition of a line: nothing reaches the device from the ring or the mailbox. -/
def Instr.timeOrLine : Instr → Bool
  | .captureWindowExpiry _ | .tick | .channelAgeStale _ | .channelAgeFailed _ | .cycleTimeoutExpiry | .purgeExpiry _
  | .confirmationExpiry | .timerExpiry _ | .markLevelChange _ | .wbrkLevelChange _ | .deferredTermSettle | .actuatorDelayExpiry _
  | .markFirstAcceptance _ | .wbrkFirstAcceptance _ => true
  | .powerOnReset _ | .rstnFall | .nonCycleFrame _ _ | .cycleFrameW0 _ | .breakWordPassing _ _ | .stageInputSlot _ _ | .stageControlSlot _ _
  | .outputSlotPassing _ _ | .statusSlotPassing _ _ | .stageCommandArea _ _ | .resultAreaPassing _ _ | .crcPassing _ _ _
  | .cycleCompletion _ _ | .unknownCommand _ _ | .identify _ | .readStatus _ | .writeSlotMap _ _ _ _ _ | .writeLinkRecord _ _ _
  | .readSlotMap _ _ | .writeChannelScale _ _ _ _ _ _ _ _ | .writeChannelLimits _ _ _ _ _ _ _ _ _ | .readChannel _ _ _
  | .readChannelState _ _ | .writeSpeedConfig _ _ _ _ _ _ _ | .readSpeedConfig _ _ | .writeProfile _ _ _ | .readProfileShadow _ _ _
  | .readProfileActive _ _ _ | .commitProfile _ | .writeZoneSetup _ _ _ _ _ _ _ _ _ | .writeZoneLoop _ _ _ _ _ _ _
  | .writeZoneSafety _ _ _ _ _ _ | .readZone _ _ _ | .readZoneState _ _ | .setZoneMode _ _ _ | .writeTimer _ _ _ _ _ _ _ _ | .readTimer _ _
  | .readTimerState _ _ | .writeTerm _ _ _ _ _ _ _ _ _ _ | .readTerm _ _ | .restorePermit _ | .writeBreakConfig _ _ _ _ _ _
  | .readBreakConfig _ _ | .readBreakHistory _ _ | .armBreak _ | .breakNow _ | .resetBreak _ | .writeActuatorSource _ _ _ _ _ _ _ _
  | .writeActuatorBreak _ _ _ _ _ _ | .readActuator _ _ _ | .setOutput _ _ _ | .writeCaptureConfig _ _ _ _ _ _ | .writeCapturePostCount _ _
  | .readCaptureConfig _ _ | .captureStart _ | .captureStop _ | .captureClear _ | .captureTriggerCommand _ | .readCapture _
  | .rewindCapture _ | .configureDone _ | .readEventsOldest _ | .readEventsUrgent _ | .clearEvents _ | .softReset _ => false

end Sys2Proof

namespace Sys2Proof.Machine

/-- R5, R6, R167, R168, R180, R183, R184: the row of the table that is this command with this tag. A write of Slot Map record 64 is
WRITE_LINK_RECORD and one of capture record 1 is WRITE_CAPTURE_POST_COUNT; a command of the catalogue whose table, part, action or order
word names nothing is a row of none. -/
def Cmd.row (tag : Byte) : Cmd → Option Instr
  | .unknown code => some (.unknownCommand tag code)
  | .invalid _ => none
  | .identify => some (.identify tag)
  | .readStatus => some (.readStatus tag)
  | .writeSlotMap r slot kind index =>
    some (if r = 64 then .writeLinkRecord tag slot kind else .writeSlotMap tag r slot kind index)
  | .readSlotMap r => some (.readSlotMap tag r)
  | .writeChannelScale r kind gain offset lo hi alpha => some (.writeChannelScale tag r kind gain offset lo hi alpha)
  | .writeChannelLimits r stale fail hi lo hyst failState enables => some (.writeChannelLimits tag r stale fail hi lo hyst failState enables)
  | .readChannel r part => some (.readChannel tag r part)
  | .readChannelState r => some (.readChannelState tag r)
  | .writeSpeedConfig r channel crawl run accel lead => some (.writeSpeedConfig tag r channel crawl run accel lead)
  | .readSpeedConfig r => some (.readSpeedConfig tag r)
  | .writeProfile header points => some (.writeProfile tag header points)
  | .readProfileShadow r first => some (.readProfileShadow tag r first)
  | .readProfileActive r first => some (.readProfileActive tag r first)
  | .commitProfile => some (.commitProfile tag)
  | .writeZoneSetup r on channel lo hi preheat ramp auto => some (.writeZoneSetup tag r on channel lo hi preheat ramp auto)
  | .writeZoneLoop r kp ki lo hi slew => some (.writeZoneLoop tag r kp ki lo hi slew)
  | .writeZoneSafety r band purge fault time => some (.writeZoneSafety tag r band purge fault time)
  | .readZone r part => some (.readZone tag r part)
  | .readZoneState r => some (.readZoneState tag r)
  | .setZoneMode mask mode => some (.setZoneMode tag mask mode)
  | .writeTimer r mode input edge clock n hold => some (.writeTimer tag r mode input edge clock n hold)
  | .readTimer r => some (.readTimer tag r)
  | .readTimerState r => some (.readTimerState tag r)
  | .writeTerm r a b c d table binding mask flag => some (.writeTerm tag r a b c d table binding mask flag)
  | .readTerm r => some (.readTerm tag r)
  | .restorePermit => some (.restorePermit tag)
  | .writeBreakConfig r enable active membership time => some (.writeBreakConfig tag r enable active membership time)
  | .readBreakConfig r => some (.readBreakConfig tag r)
  | .readBreakHistory r => some (.readBreakHistory tag r)
  | .armBreak => some (.armBreak tag)
  | .breakNow => some (.breakNow tag)
  | .resetBreak => some (.resetBreak tag)
  | .writeActuatorSource r kind index fixed on off slew => some (.writeActuatorSource tag r kind index fixed on off slew)
  | .writeActuatorBreak r action value step delay => some (.writeActuatorBreak tag r action value step delay)
  | .readActuator r part => some (.readActuator tag r part)
  | .setOutput actuator value => some (.setOutput tag actuator value)
  | .writeCaptureConfig r mode decimation count packed =>
    some (if r = 1 then .writeCapturePostCount tag mode else .writeCaptureConfig tag r mode decimation count packed)
  | .readCaptureConfig r => some (.readCaptureConfig tag r)
  | .captureStart => some (.captureStart tag)
  | .captureStop => some (.captureStop tag)
  | .captureClear => some (.captureClear tag)
  | .captureTrigger => some (.captureTriggerCommand tag)
  | .readCapture => some (.readCapture tag)
  | .rewindCapture => some (.rewindCapture tag)
  | .configureDone => some (.configureDone tag)
  | .readEventsOldest => some (.readEventsOldest tag)
  | .readEventsUrgent => some (.readEventsUrgent tag)
  | .clearEvents => some (.clearEvents tag)
  | .softReset => some (.softReset tag)

/-- The device takes mailbox commands, and none is executing or awaiting delivery (R179). -/
def Device.Free (d : Device) : Prop := d.takesCommands = true ∧ d.mailboxFree = true

/-- The command completes with this result and changes nothing else (R180: a refusal, or a read). -/
def Answers (i : Instr) (s : State) (tag code : Byte) (rc : ResultCode) (data : List Word) : Prop :=
  exec i s = .next { s with dev := s.dev.setResult rc tag code data }

/-- The command completes with OK and these data, and leaves the device `d` with that result pending. -/
def Leaves (i : Instr) (s : State) (tag code : Byte) (d : Device) (data : List Word) : Prop :=
  exec i s = .next { s with dev := d.setResult .ok tag code data }

/-- The command completes with OK: the effect `e` is followed to its end, and the data are read from the device that it leaves. -/
def Settles (i : Instr) (s : State) (tag code : Byte) (e : Effect) (data : Device → List Word) : Prop :=
  Leaves i s tag code (s.dev.runEffect e) (data (s.dev.runEffect e))

/-- R130: an ASSERTED permit has its four conditions. -/
def Device.PermitSafe (d : Device) : Prop := d.permit = .asserted → d.permitConditions = true

/-- R42, R143, R165, R166, R188: no list outgrows its capacity, and the read position lies within the records. -/
def Device.Bounded (d : Device) : Prop :=
  d.events.records.length ≤ 32 ∧ d.monitor.history.length ≤ 8 ∧ d.speed.history.length ≤ 8
    ∧ d.capture.records.length ≤ 512 ∧ d.capture.position ≤ d.capture.records.length

/-- R62, R63: the zones that still carry their mark are those of the marked mask that lie neither in the rebased nor in the released mask,
which do not overlap. -/
def Commit.Matches (r : Commit) (d : Device) : Prop :=
  ∀ z : Fin 12, d.zones[z].bumpless = (r.marked.getLsbD z.val && !r.rebased.getLsbD z.val && !r.released.getLsbD z.val)
    ∧ (r.rebased.getLsbD z.val && r.released.getLsbD z.val) = false
    ∧ (r.rebased.getLsbD z.val → r.marked.getLsbD z.val) ∧ (r.released.getLsbD z.val → r.marked.getLsbD z.val)

/-- R62, R63, R64, R178: a command executes exactly while a commit waits, never beside a pending result; only TRACK zones are marked; and the
commit waits exactly while a zone is marked. -/
def Device.CommitWaits (d : Device) : Prop :=
  (∀ z : Fin 12, d.zones[z].bumpless = true → d.zones[z].mode = .track)
    ∧ (d.mailbox.executing = none ∨ d.mailbox.pending = none)
    ∧ (match d.profile.commit with
        | none => d.mailbox.executing = none ∧ ∀ z : Fin 12, d.zones[z].bumpless = false
        | some r => d.mailbox.executing.isSome = true ∧ (∃ z : Fin 12, d.zones[z].bumpless = true) ∧ r.Matches d)

/-- R71 to R74, R89, R95, R97, R99: a zone's fields lie in their ranges, and its purge countdown runs exactly in PURGE. -/
structure Zone.InRange (z : Zone) : Prop where
  setpoints : -500 ≤ z.spMin ∧ z.spMin ≤ z.spMax ∧ z.spMax ≤ 4500
  preheat : -500 ≤ z.preheatSetpoint ∧ z.preheatSetpoint ≤ 4500
  ramp : 1 ≤ z.rampStep ∧ z.rampStep ≤ 500
  gains : 0 ≤ z.kp ∧ z.kp ≤ 4095 ∧ 0 ≤ z.ki ∧ z.ki ≤ 4095
  outputs : 0 ≤ z.outMin ∧ z.outMin ≤ z.outMax ∧ z.outMax ≤ 10000
  slew : 1 ≤ z.slewMax ∧ z.slewMax ≤ 10000
  overBand : 0 ≤ z.overBand ∧ z.overBand ≤ 1000
  purgeOutput : 0 ≤ z.purgeOutput ∧ z.purgeOutput ≤ 10000
  faultOutput : 0 ≤ z.faultOutput ∧ z.faultOutput ≤ 10000
  purgeTime : 1 ≤ z.purgeTime ∧ z.purgeTime ≤ 65535
  purgeCount : z.purgeCount ≤ 65535 ∧ (1 ≤ z.purgeCount ↔ z.mode = .purge)
  workingSetpoint : z.spMin ≤ z.w ∧ z.w ≤ z.spMax
  integrator : -10000 ≤ z.i ∧ z.i ≤ 10000
  output : 0 ≤ z.u ∧ z.u ≤ 10000

/-- R152, R157, R159, R160: an actuator's fields lie in their ranges, and its countdown runs exactly in DELAYING. -/
structure Actuator.InRange (a : Actuator) : Prop where
  fixedValue : 0 ≤ a.fixedValue ∧ a.fixedValue ≤ 10000
  onValue : 0 ≤ a.onValue ∧ a.onValue ≤ 10000
  offValue : 0 ≤ a.offValue ∧ a.offValue ≤ 10000
  slew : 1 ≤ a.slewMax ∧ a.slewMax ≤ 10000
  actionValue : 0 ≤ a.actionValue ∧ a.actionValue ≤ 10000
  step : 1 ≤ a.step ∧ a.step ≤ 10000
  delay : a.delay ≤ 255
  value : 0 ≤ a.value ∧ a.value ≤ 10000
  countdown : a.countdown ≤ 255 ∧ (1 ≤ a.countdown ↔ a.phase = .delaying)

/-- R71 to R74, R152, R154: every zone and every actuator lies in range. -/
def Device.OutputsInRange (d : Device) : Prop :=
  (∀ z : Fin 12, d.zones[z].InRange) ∧ ∀ a : Fin 16, d.actuators[a].InRange

/-- R54, R56: a curve as the SHADOW bank may hold it. -/
def Curve.Loadable (c : Curve) : Prop := c.length ≤ 16 ∧ ∀ i : Fin 16, c.entries[i].valid = true

/-- R54, R55: every ACTIVE curve is empty or strictly ascending with 2 to 16 breakpoints, and every entry lies in range. -/
def Device.CurvesValid (d : Device) : Prop :=
  (∀ c : Fin 12, d.profile.shadow[c].Loadable) ∧ ∀ c : Fin 12, d.profile.active[c].Loadable ∧ d.profile.active[c].isValid = true

/-- R4: no slot and no role appears twice among the non-empty entries. -/
def SlotMap.NoDuplicates (m : SlotMap) : Prop :=
  ∀ i j : Fin 64, i ≠ j → ∀ x y, m.entries[i] = some x → m.entries[j] = some y → x.slot ≠ y.slot ∧ x.role ≠ y.role

/-- R122, R123, R124: a term reads only terms below it, and its value is the entry that its inputs select unless its change is deferred. -/
def Device.TermsSettled (d : Device) : Prop :=
  ∀ j : Fin 8, (∀ c ∈ d.terms[j].inputs, c.below j = true)
    ∧ (d.terms[j].deferred = false → d.terms[j].value = d.selected d.terms[j])

/-- R104, R109 to R113: N and its latch lie in 1..65535, the count lies below N, and a unit that is not counting has count 0. -/
structure Timer.Sound (t : Timer) : Prop where
  n : 1 ≤ t.n ∧ t.n ≤ 65535
  latch : 1 ≤ t.latchN ∧ t.latchN ≤ 65535
  count : t.count < t.n
  idle : t.isCounting = false → t.count = 0

/-- R104: every unit. -/
def Device.TimersSound (d : Device) : Prop := ∀ k : Fin 6, d.timers[k].Sound

/-- R134, R139, R140, R142, R157, R160: the confirmation countdown runs exactly in SUSPECT, and only a BROKEN Monitor has actuators in
their break phases. -/
structure Device.MonitorSound (d : Device) : Prop where
  confirm : 1 ≤ d.monitor.confirmTime ∧ d.monitor.confirmTime ≤ 65535
  suspect : d.monitor.state = .suspect → 1 ≤ d.monitor.countdown ∧ d.monitor.countdown ≤ 65535
  calm : d.monitor.state ≠ .suspect → d.monitor.countdown = 0 ∧ d.monitor.suspectTicks = 0
  phases : d.monitor.state ≠ .broken → ∀ a : Fin 16, d.actuators[a].phase = .none

/-- R130, R134, chapter 11.3, R165: in UNCONFIGURED the permit is DROPPED, the Monitor DISARMED, every zone OFF, every actuator in phase NONE
and the Capture Buffer IDLE or FROZEN. -/
def Device.UnconfiguredIdle (d : Device) : Prop :=
  d.mailbox.ready = false →
    d.permit = .dropped ∧ d.monitor.state = .disarmed ∧ (∀ z : Fin 12, d.zones[z].mode = .off)
      ∧ (∀ a : Fin 16, d.actuators[a].phase = .none) ∧ (d.capture.state = .idle ∨ d.capture.state = .frozen)

/-! ## What an event leaves alone -/

/-- The configuration of a channel agrees. -/
def Channel.SameConfig (c c' : Channel) : Prop := c'.scaleWords = c.scaleWords ∧ c'.limitsWords = c.limitsWords

/-- A value and its latch: they stand, or a pending latch has been loaded (R117, R168). -/
def LatchOrSame (n latch n' latch' : Nat) (pending pending' : Bool) : Prop :=
  latch' = latch ∧ ((n' = n ∧ pending' = pending) ∨ (pending = true ∧ n' = latch ∧ pending' = false))

/-- The configuration of a timer agrees, but for the load of a pending latch into N. -/
def Timer.SameConfig (t t' : Timer) : Prop :=
  t'.mode = t.mode ∧ t'.input = t.input ∧ t'.edge = t.edge ∧ t'.clock = t.clock ∧ t'.hold = t.hold
    ∧ LatchOrSame t.n t.latchN t'.n t'.latchN t.latchPending t'.latchPending

/-- The configuration of a term agrees. -/
def Term.SameConfig (t t' : Term) : Prop :=
  t'.inputs = t.inputs ∧ t'.table = t.table ∧ t'.binding = t.binding ∧ t'.zoneMask = t.zoneMask ∧ t'.eventFlag = t.eventFlag

/-- Every block keeps what only a command may change: the Slot Map, the configuration of channels, tracker, zones, timers, terms, Monitor,
actuators and Capture Buffer, both profile banks, the part state and the node address. -/
structure Device.SameConfig (d d' : Device) : Prop where
  slotMap : d'.slotMap = d.slotMap
  channels : ∀ c : Fin 32, Channel.SameConfig d.channels[c] d'.channels[c]
  speed : d'.speed.configWords = d.speed.configWords
  shadow : d'.profile.shadow = d.profile.shadow
  active : d'.profile.active = d.profile.active
  zones : ∀ z : Fin 12, d'.zones[z].setupWords = d.zones[z].setupWords ∧ d'.zones[z].loopWords = d.zones[z].loopWords
    ∧ d'.zones[z].safetyWords = d.zones[z].safetyWords
  timers : ∀ k : Fin 6, Timer.SameConfig d.timers[k] d'.timers[k]
  terms : ∀ j : Fin 8, Term.SameConfig d.terms[j] d'.terms[j]
  monitor : d'.monitor.configWords = d.monitor.configWords
  actuators : ∀ a : Fin 16, d'.actuators[a].sourceWords = d.actuators[a].sourceWords
    ∧ d'.actuators[a].breakWords = d.actuators[a].breakWords
  capture : d'.capture.configWords = d.capture.configWords
  postCount : LatchOrSame d.capture.postCount d.capture.latchP d'.capture.postCount d'.capture.latchP d.capture.latchPending
    d'.capture.latchPending
  ready : d'.mailbox.ready = d.mailbox.ready
  node : d'.mailbox.nodeAddress = d.mailbox.nodeAddress

/-- Terms and timers read only constant conditions: no event is handed on through the condition network. -/
def Device.Unread (d : Device) : Prop :=
  (∀ j : Fin 8, ∀ c ∈ d.terms[j].inputs, c.isFixed = true) ∧ ∀ k : Fin 6, d.timers[k].input.isFixed = true

/-- R122, R123: the change of the accepted MARK level to `level` moves term `j` to `v`. The term reads MARK and otherwise constants, every other
term reads constants, and at the new level the inputs of term `j` select `v`, which is not its value. What the timers read is free. -/
def Device.MarkMovesTerm (d : Device) (level : Bool) (j : Fin 8) (v : Bool) : Prop :=
  d.lines.rstn = true ∧ d.lines.mark = some (!level)
    ∧ Cond.markLevel ∈ d.terms[j].inputs ∧ (∀ c ∈ d.terms[j].inputs, c.isFixed = true ∨ c = .markLevel)
    ∧ (∀ i : Fin 8, i ≠ j → ∀ c ∈ d.terms[i].inputs, c.isFixed = true)
    ∧ d.terms[j].value = (!v) ∧ ({ d with lines := { d.lines with mark := some level } } : Device).selected d.terms[j] = v

/-- R3, R13: the end of the frame in passage, without a loss of signal, is a good completion. -/
def Device.FrameIsGood (d : Device) : Prop :=
  ∃ n : Nat, d.port.frame.passage = .cycle n ∧ d.port.frame.position = n + 34 ∧ d.port.frame.crcGood = true

/-- R16, R179: the frame in passage stages no command for this node, which is not node 0. -/
def Device.BringsNoCommand (d : Device) : Prop :=
  d.mailbox.nodeAddress = 0 ∨ ∀ (node code third : Word) (rest : List Word),
    d.port.frame.staging.command = node :: code :: third :: rest → node ≠ d.mailbox.nodeAddress.setWidth 16

/-- R188: this event was raised on the way from the queue `q` to `q'`, with nothing read out in between: it is one of the records that have
joined, or the queue is full and has lost a record. -/
def EventQueue.Told (q q' : EventQueue) (kind : EventKind) (source : Nat) (stamp : BitVec 32) (value : Word) : Prop :=
  { kind := kind, source := BitVec.ofNat 8 source, stamp := stamp, value := value : EventRecord } ∈ q'.records.drop q.records.length
    ∨ (32 ≤ q'.records.length ∧ q'.overrun = true)

/-- R188: an event of this kind was raised in the same sense, whatever its source index. -/
def EventQueue.ToldAnySource (q q' : EventQueue) (kind : EventKind) (stamp : BitVec 32) (value : Word) : Prop :=
  (∃ e ∈ q'.records.drop q.records.length, e.kind = kind ∧ e.stamp = stamp ∧ e.value = value)
    ∨ (32 ≤ q'.records.length ∧ q'.overrun = true)

/-- R188: no event of this kind is among the records that have joined. -/
def EventQueue.Silent (q q' : EventQueue) (kind : EventKind) : Prop := ∀ e ∈ q'.records.drop q.records.length, e.kind ≠ kind

/-- R88, R89, R144, R172: a declaration has reached the zones and the Capture Buffer. A zone in PREHEAT, in TRACK or in HOLD for a return purges or is
held for its purge; one in OFF, PURGE or FAULT stands; a capture that takes triggers has taken one, as its mode says. Where terms and timers
read only constants, nothing else happens to them: a zone that purges has the values of its purge, and the trigger is the declaration's. -/
structure Device.ReachedByBreak (d d' : Device) : Prop where
  purges : ∀ z : Fin 12,
    (d.zones[z].mode = .preheat ∨ d.zones[z].mode = .track ∨ (d.zones[z].mode = .hold ∧ d.zones[z].returnMode ≠ .none)) →
      d'.zones[z].mode = .purge ∨ (d'.zones[z].mode = .hold ∧ d'.zones[z].returnMode = .purge)
  stands : ∀ z : Fin 12, (d.zones[z].mode = .off ∨ d.zones[z].mode = .purge ∨ d.zones[z].mode = .fault) → d'.zones[z] = d.zones[z]
  enters : d.Unread → ∀ z : Fin 12,
    (d.zones[z].mode = .preheat ∨ d.zones[z].mode = .track → d'.zones[z] = { d.zones[z] with
      mode := .purge, u := d.zones[z].purgeOutput, i := 0, limitDir := .none, purgeCount := d.zones[z].purgeTime
      faultDeferred := false, returnMode := .none, bumpless := false })
    ∧ (d.zones[z].mode = .hold → d.zones[z].returnMode = .preheat ∨ d.zones[z].returnMode = .track →
        d'.zones[z] = { d.zones[z] with returnMode := .purge })
  triggers : d.capture.state = .running ∨ d.capture.state = .waiting →
    d'.capture.state = (if d.capture.mode = .pre then .frozen else .postfill)
      ∧ (d'.events.overrun = true ∨ ∃ e ∈ d'.events.records, e.kind = .captureTriggered ∧ (d.Unread → e.source = 2)
          ∧ e.stamp = d.port.cycleCount ∧ e.value = BitVec.ofNat 16 d.capture.records.length)
  leaves : d.capture.state ≠ .running → d.capture.state ≠ .waiting → d'.capture = d.capture

end Sys2Proof.Machine
end

