-- ==== Sys2Proof/Certificates/Slice0/Obligations.lean ====
section
/-! DEFINITION. The statements for the provers. -/

open Sys2Proof Sys2Proof.Machine

/-! ## The machine as a whole -/

/-- A step runs the command at the front of the queue, with the rest of the queue waiting; and that command has an effect in every state: no
fault, no refusal, and the commands that wait untouched. With no command waiting the block idles: that clause, and the queue itself, are
the model's choice (log 1). -/
def Obligations.StepRunsTheFrontCommand : Prop :=
  ∀ s : State,
    (∀ c rest, s.pending = c :: rest →
      step s = exec c { s with pending := rest } ∧ ∃ d : Device, step s = .next { dev := d, pending := rest })
      ∧ (s.pending = [] → step s = .next s)

/-- R178, R179: while a command is executing or a result is pending, a mailbox command other than SOFT_RESET is not taken: it has no effect on
any block. At node address 0 no command is taken, SOFT_RESET included. -/
def Obligations.MailboxTakesNothingWhileBusy : Prop :=
  (∀ (i : Instr) (s : State), i.waitsForMailbox = true →
    (s.dev.mailbox.executing.isSome = true ∨ s.dev.mailbox.pending.isSome = true ∨ s.dev.mailbox.nodeAddress = 0) →
      exec i s = .next s)
    ∧ ∀ (tag : Byte) (s : State), s.dev.mailbox.nodeAddress = 0 → exec (.softReset tag) s = .next s

/-- The state after reset meets every invariant below. -/
def Obligations.ResetMeetsEveryInvariant : Prop :=
  State.reset.dev.PermitSafe ∧ State.reset.dev.Bounded ∧ State.reset.dev.CommitWaits ∧ State.reset.dev.OutputsInRange
    ∧ State.reset.dev.CurvesValid ∧ State.reset.dev.slotMap.NoDuplicates ∧ State.reset.dev.TermsSettled
    ∧ State.reset.dev.TimersSound ∧ State.reset.dev.MonitorSound ∧ State.reset.dev.UnconfiguredIdle ∧ State.reset.pending = []

/-! ## RSTN -/

/-- R22 and the POWER-ON values of R25, R42, R52, R54, R71, R105, R121, R122, R130, R134, R152, R165, R178 and R188: what a power-on reset leaves,
whatever stood before. That a frame in passage goes on as received is read from R22 (log 19). -/
def Obligations.PowerOnResetValues : Prop :=
  ∀ (straps : BitVec 5) (s : State), ∃ t : State, exec (.powerOnReset straps) s = .next t
    ∧ t.dev.lines = { rstn := true, straps := straps, mark := none, wbrk := none }
    ∧ t.dev.port.link = .searching ∧ t.dev.port.cycleCount = 0 ∧ t.dev.port.badRun = 0 ∧ t.dev.port.timeoutCountdown = 50
    ∧ t.dev.port.permitRequest = false ∧ t.dev.port.triggerRequest = false ∧ t.dev.port.frame.staging = {}
    ∧ (s.dev.port.frame.passage = .idle → t.dev.port.frame.passage = .idle)
    ∧ (s.dev.port.frame.passage ≠ .idle → t.dev.port.frame.passage = .transparent)
    ∧ (∀ i : Fin 64, t.dev.slotMap.entries[i] = none) ∧ t.dev.slotMap.cycleTimeout = 50 ∧ t.dev.slotMap.badLimit = 3
    ∧ (∀ c : Fin 32, t.dev.channels[c] =
        { kind := .temp, gain := 4096, offset := 0, lo := -500, hi := 4500, alpha := 256, staleLimit := 1000, failLimit := 5000
          hiLimit := 4500, loLimit := -500, hyst := 0, failState := false, enableHi := false, enableLo := false, enableStale := false
          raw := 0, value := 0, filtered := 0, age := 0, validity := .none, hiSet := false, loSet := false, limited := false })
    ∧ t.dev.speed = { speedChannel := 0, crawlSpeed := 5, runSpeed := 30, accelBand := 20, leadFactor := 0, history := [], v := 0, a := 0
                      lead := 0, state := .unknown }
    ∧ (∀ c : Fin 12, t.dev.profile.shadow[c].length = 0 ∧ t.dev.profile.active[c].length = 0
        ∧ ∀ i : Fin 16, t.dev.profile.shadow[c].entries[i] = { speed := 0, setpoint := 0, feedforward := 0 }
          ∧ t.dev.profile.active[c].entries[i] = { speed := 0, setpoint := 0, feedforward := 0 })
    ∧ t.dev.profile.commit = none
    ∧ (∀ z : Fin 12, t.dev.zones[z] =
        { enabled := false, measChannel := z.castLE (by decide), spMin := 0, spMax := 2000, preheatSetpoint := 0, rampStep := 10
          autoTrack := false, kp := 0, ki := 0, outMin := 0, outMax := 10000, slewMax := 10000, overBand := 100, purgeOutput := 0
          faultOutput := 0, purgeTime := 10000, mode := .off, returnMode := .none, w := 0, i := 0, u := 0, limitDir := .none
          bumpless := false, purgeCount := 0, faultDeferred := false })
    ∧ (∀ k : Fin 6, t.dev.timers[k] =
        { mode := .delay, input := .fixed false, edge := .rise, clock := .tick, n := 1, hold := .fixed false, counting := false, count := 0
          output := false, inputLevel := false, latchPending := false, latchN := 1 })
    ∧ (∀ j : Fin 8, t.dev.terms[j] =
        { a := .fixed false, b := .fixed false, c := .fixed false, d := .fixed false, table := 0, binding := .none, zoneMask := 0
          eventFlag := false, value := false, deferred := false })
    ∧ t.dev.permit = .dropped
    ∧ t.dev.monitor = { wbrkEnable := false, wbrkActive := true, membership := 0, confirmTime := 5000, state := .disarmed, countdown := 0
                        suspectTicks := 0, lastNotice := 0, lastAssert := 0, history := [], declarations := 0 }
    ∧ (∀ a : Fin 16, t.dev.actuators[a] =
        { source := .fixed, fixedValue := 0, onValue := 0, offValue := 0, slewMax := 10000, action := .follow, actionValue := 0
          step := 100, delay := 0, value := 0, phase := .none, countdown := 0, converging := false, unseen := false })
    ∧ t.dev.capture = { channels := [], decimation := 1, mode := .pre, postCount := 256, latchPending := false, latchP := 256
                        state := .idle, records := [], position := 0, counter := 0, countdown := 0, markOwed := false
                        lastRequest := false }
    ∧ t.dev.mailbox = { nodeAddress := straps, executing := none, pending := none, written := false, ready := false }
    ∧ t.dev.events = { records := [], overrun := false }

/-- R2, R21, R22, R130: when RSTN falls, FPERMIT takes its dropped level, a frame in passage is from then on forwarded as received, and every
block's state stands. While RSTN is low, no command but POWER_ON_RESET changes anything but the record of the frame that is being
forwarded: each row that passes words of a frame sends exactly those words, W0 starts a frame that is only forwarded, and the end of a frame
is no completion. In either level of RSTN a frame of another kind leaves with every word as received and changes
nothing but the record of the frame. That no other block acts while RSTN is low is read from R22 (log 19); that a high CRC word which waits
for its low one leaves as received when RSTN falls is the model's choice (log 14). -/
def Obligations.RstnLowAndOtherFramesOnlyForward : Prop :=
  (∀ s : State, ∃ t : State, exec .rstnFall s = .next t
     ∧ t.dev = { s.dev with
         lines := { s.dev.lines with rstn := false }, port := { s.dev.port with frame := t.dev.port.frame } }
     ∧ t.dev.fpermit = false
     ∧ (s.dev.port.frame.passage = .idle → t.dev.port.frame = s.dev.port.frame)
     ∧ (s.dev.port.frame.passage ≠ .idle → t.dev.port.frame.passage = .transparent
         ∧ t.dev.port.frame.ringOut = s.dev.port.frame.ringOut ++ s.dev.port.frame.crcHigh.toList))
  ∧
  (∀ (i : Instr) (s : State), s.dev.lines.rstn = false →
     (∀ straps, i ≠ .powerOnReset straps) → ∃ f : FramePassage, exec i s = .next { s with dev := s.dev.setFrame f })
  ∧
  (∀ (skipped : List Word) (w high low : Word) (area : Vector Word 13) (loss : Bool) (s : State), s.dev.lines.rstn = false →
     let f := s.dev.port.frame
     let forwards := fun (i : Instr) (ws : List Word) => exec i s = .next { s with dev := s.dev.setFrame { f with
       position := f.position + ws.length, ringOut := f.ringOut ++ ws } }
     (f.passage ≠ .idle →
       forwards (.breakWordPassing skipped w) (skipped ++ [w]) ∧ forwards (.stageInputSlot skipped w) (skipped ++ [w])
       ∧ forwards (.stageControlSlot skipped w) (skipped ++ [w]) ∧ forwards (.outputSlotPassing skipped w) (skipped ++ [w])
       ∧ forwards (.statusSlotPassing skipped w) (skipped ++ [w]) ∧ forwards (.resultAreaPassing skipped w) (skipped ++ [w])
       ∧ forwards (.stageCommandArea skipped area) (skipped ++ area.toList)
       ∧ forwards (.crcPassing skipped high low) (skipped ++ [high, low])
       ∧ exec (.cycleCompletion skipped loss) s = .next { s with dev := s.dev.setFrame { f with
           passage := .idle, position := f.position + skipped.length, ringOut := f.ringOut ++ skipped } })
     ∧ ∃ g : FramePassage, exec (.cycleFrameW0 w) s = .next { s with dev := s.dev.setFrame g }
         ∧ g.passage = .transparent ∧ g.position = 1 ∧ g.ringOut = [w] ∧ g.staging = {})
  ∧
  (∀ (w0 : Word) (rest : List Word) (s : State), frameKind w0 ≠ cycleKind →
     ∃ f : FramePassage, exec (.nonCycleFrame w0 rest) s = .next { s with dev := s.dev.setFrame f }
       ∧ f.ringOut = w0 :: rest ∧ f.passage = .idle ∧ f.staging = {})

/-! ## The ring -/

/-- R3, R7, R8, R156: W0 of a CYCLE frame. With N in 16..128 the frame is served with an empty staging, and in READY exactly the actuators
with an OUTPUT entry at N or above become unseen, each that was not yet unseen with one SLOT_UNSEEN of value N, in ascending order; no
other event is raised. Otherwise the frame is malformed and no actuator is signalled. That a W0 starts anew whatever was in passage is the
model's reading (log 22), and so is that it ends the model's note of a declaration (log 27). -/
def Obligations.FirstWordStartsTheFrame : Prop :=
  ∀ (w0 : Word) (s : State), s.dev.lines.rstn = true → frameKind w0 = cycleKind →
    ∃ t : State, exec (.cycleFrameW0 w0) s = .next t
      ∧ t.dev = { s.dev with
          port := { s.dev.port with frame := t.dev.port.frame }, mailbox := { s.dev.mailbox with written := false }
          actuators := t.dev.actuators, events := t.dev.events, breakMet := 0 }
      ∧ t.dev.port.frame.ringOut = [w0] ∧ t.dev.port.frame.staging = {} ∧ t.dev.port.frame.position = 1
      ∧ (16 ≤ slotCount w0 ∧ slotCount w0 ≤ 128 →
          t.dev.port.frame.passage = .cycle (slotCount w0)
          ∧ (∃ newly : List (Fin 16), newly.Pairwise (· < ·)
              ∧ (∀ a : Fin 16, a ∈ newly ↔ s.dev.mailbox.ready = true ∧ s.dev.actuators[a].unseen = false
                  ∧ ∃ (i : Fin 64) (x : SlotEntry),
                      s.dev.slotMap.entries[i] = some x ∧ x.role = .output a ∧ slotCount w0 ≤ x.slot.val)
              ∧ t.dev.events = newly.foldl (fun q a => q.offer
                  { kind := .slotUnseen, source := BitVec.ofNat 8 a.val, stamp := s.dev.port.cycleCount
                    value := BitVec.ofNat 16 (slotCount w0) }) s.dev.events)
          ∧ ∀ a : Fin 16,
              ((s.dev.mailbox.ready = true
                  ∧ ∃ (i : Fin 64) (x : SlotEntry), s.dev.slotMap.entries[i] = some x ∧ x.role = .output a ∧ slotCount w0 ≤ x.slot.val) →
                t.dev.actuators[a] = { s.dev.actuators[a] with unseen := true })
              ∧ (¬(s.dev.mailbox.ready = true
                  ∧ ∃ (i : Fin 64) (x : SlotEntry), s.dev.slotMap.entries[i] = some x ∧ x.role = .output a ∧ slotCount w0 ≤ x.slot.val) →
                t.dev.actuators[a] = s.dev.actuators[a]))
      ∧ (slotCount w0 < 16 ∨ 128 < slotCount w0 →
          t.dev.port.frame.passage = .malformed ∧ t.dev.actuators = s.dev.actuators ∧ t.dev.events = s.dev.events)

/-- R1, R3, R4, R8, R11: the places of a frame's words. In a served frame W2 is the break word; W(3+s) is the slot s, with the role of the entry
that holds it, and only forwarded where none does; W(3+N) to W(15+N) are the command area, W(16+N) to W(31+N) the result area and the next two
the CRC words. The break word, an INPUT slot, the CONTROL slot and the thirteen words of the command area are staged exactly as received; the break
word leaves with the membership groups set where the part is READY and the Monitor BROKEN, and with no bit cleared; the others, and a word at
no such place, leave as received, without the CRC where the frame is not served. That a word acts at the place where it stands, whichever row
names it, that a row carries the words skipped before its own, and that a word between frames changes nothing, are the model's choices (log 7). -/
def Obligations.StagedWordsAreKeptAsReceived : Prop :=
  (∀ (skipped : List Word) (w : Word) (s : State),
     let d := s.dev.passWords skipped
     let f := d.port.frame
     let out := if d.mailbox.ready = true ∧ d.monitor.state = .broken then w ||| d.monitor.membership.setWidth 16 else w
     (d.place = .breakWord → exec (.breakWordPassing skipped w) s = .next { s with dev := d.setFrame { f with
         position := f.position + 1, crcIn := crcWord f.crcIn w, crcOut := crcWord f.crcOut out, ringOut := f.ringOut ++ [out]
         staging := { f.staging with breakWord := some w } } })
       ∧ highByte out = highByte w ∧ w &&& out = w
       ∧ (∀ c, d.place = .input c → exec (.stageInputSlot skipped w) s = .next { s with dev := d.setFrame { f with
           position := f.position + 1, crcIn := crcWord f.crcIn w, crcOut := crcWord f.crcOut w, ringOut := f.ringOut ++ [w]
           staging := { f.staging with inputs := f.staging.inputs.set c (some w) } } })
       ∧ (d.place = .control → exec (.stageControlSlot skipped w) s = .next { s with dev := d.setFrame { f with
           position := f.position + 1, crcIn := crcWord f.crcIn w, crcOut := crcWord f.crcOut w, ringOut := f.ringOut ++ [w]
           staging := { f.staging with control := some w } } }))
  ∧
  (∀ (skipped : List Word) (area : Vector Word 13) (s : State) (n : Nat),
     let d := s.dev.passWords skipped
     d.lines.rstn = true → d.port.frame.passage = .cycle n → d.port.frame.position = 3 + n →
       ∃ f : FramePassage, exec (.stageCommandArea skipped area) s = .next { s with dev := d.setFrame f }
         ∧ f.staging = { d.port.frame.staging with command := d.port.frame.staging.command ++ area.toList }
         ∧ f.ringOut = d.port.frame.ringOut ++ area.toList ∧ f.position = 16 + n ∧ f.passage = .cycle n)
  ∧
  (∀ (d : Device) (n : Nat), d.lines.rstn = true → d.port.frame.passage = .cycle n → d.slotMap.NoDuplicates →
     let p := d.port.frame.position
     (p < 2 → d.place = .plain) ∧ (p = 2 → d.place = .breakWord)
       ∧ (∀ (i : Fin 64) (x : SlotEntry), d.slotMap.entries[i] = some x → x.slot.val < n → p = 3 + x.slot.val →
           d.place = (match x.role with
             | .input c => .input c
             | .output a => .output a
             | .status => .status
             | .control => .control))
       ∧ (3 ≤ p → p < 3 + n → (∀ (i : Fin 64) (x : SlotEntry), d.slotMap.entries[i] = some x → p ≠ 3 + x.slot.val) → d.place = .plain)
       ∧ (3 + n ≤ p → p < 16 + n → d.place = .command) ∧ (p = 16 + n → d.place = .resultHead)
       ∧ (16 + n < p → p < 32 + n → d.place = .resultRest) ∧ (p = 32 + n → d.place = .crcHigh) ∧ (p = 33 + n → d.place = .crcLow)
       ∧ (33 + n < p → d.place = .unserved))
  ∧
  (∀ (w : Word) (rest : List Word) (d : Device),
     let f := d.port.frame
     d.passWords [] = d ∧ d.passWords (w :: rest) = (d.passWord w).passWords rest
       ∧ (f.passage ≠ .idle →
           (d.passWord w).port.frame.passage = f.passage ∧ (d.passWord w).port.frame.position = f.position + 1)
       ∧ (f.passage = .idle → d.passWord w = d)
       ∧ (f.passage = .malformed ∨ f.passage = .transparent → d.place = .unserved)
       ∧ (d.place = .plain → d.passWord w = d.setFrame { f with
           position := f.position + 1, crcIn := crcWord f.crcIn w, crcOut := crcWord f.crcOut w, ringOut := f.ringOut ++ [w] })
       ∧ (d.place = .unserved → d.passWord w = d.setFrame { f with position := f.position + 1, ringOut := f.ringOut ++ [w] }))
  ∧
  (∀ (skipped : List Word) (w : Word) (s : State),
     let passes := fun i : Instr => exec i s = .next { s with dev := (s.dev.passWords skipped).passWord w }
     passes (.breakWordPassing skipped w) ∧ passes (.stageInputSlot skipped w) ∧ passes (.stageControlSlot skipped w)
       ∧ passes (.outputSlotPassing skipped w) ∧ passes (.statusSlotPassing skipped w) ∧ passes (.resultAreaPassing skipped w))

/-- R9, R10, R153, R154, R155, R158, R159: in READY an OUTPUT slot advances its actuator by its phase and carries the value that results, and
the STATUS slot carries the status word; in UNCONFIGURED both leave as received and no actuator advances. -/
def Obligations.InsertedWordsCarryTheDevicesValues : Prop :=
  (∀ (skipped : List Word) (w : Word) (s : State) (a : Fin 16),
    let d := s.dev.passWords skipped
    let x := d.actuators[a].pass (d.sourceValue d.actuators[a])
    let f := d.port.frame
    d.place = .output a →
      (d.mailbox.ready = true → exec (.outputSlotPassing skipped w) s = .next { s with dev := (d.setActuator a x).setFrame { f with
          position := f.position + 1, crcIn := crcWord f.crcIn w, crcOut := crcWord f.crcOut (toWord x.value)
          ringOut := f.ringOut ++ [toWord x.value] } })
        ∧ (d.mailbox.ready = false → exec (.outputSlotPassing skipped w) s = .next { s with dev := d.passPlain w }))
  ∧ (∀ (skipped : List Word) (w : Word) (s : State),
    let d := s.dev.passWords skipped
    let out := if d.mailbox.ready = true then d.statusWord else w
    let f := d.port.frame
    d.place = .status → exec (.statusSlotPassing skipped w) s = .next { s with dev := d.setFrame { f with
      position := f.position + 1, crcIn := crcWord f.crcIn w, crcOut := crcWord f.crcOut out, ringOut := f.ringOut ++ [out] } })
  ∧ (∀ (x : Actuator) (source : Int),
    let advanced := if x.source.kind = .zone ∧ x.converging = false then source else moveToward x.slewMax source x.value
    let followed := { x with
      unseen := false, value := advanced, converging := if advanced = source then false else x.converging }
    (x.phase = .none → x.pass source = followed)
      ∧ (x.phase = .delaying → x.pass source =
          if 1 < x.countdown then { followed with countdown := x.countdown - 1 } else { followed with countdown := 0, phase := .acting })
      ∧ (x.phase = .acting → x.action = .follow → x.pass source = followed)
      ∧ (x.phase = .acting → x.action = .hold → x.pass source = { x with unseen := false })
      ∧ (x.phase = .acting → x.action = .force → x.pass source = { x with unseen := false, value := x.actionValue })
      ∧ (x.phase = .acting → x.action = .ramp →
          x.pass source = { x with unseen := false, value := moveToward x.step x.actionValue x.value }))

/-- R12: at word 0 of the result area a pending result is written into an area that arrives empty: the node address, the result code, the echo
word and the thirteen data words leave in place of the sixteen received, and the result is marked as written. In every other case
the word leaves as received. -/
def Obligations.PendingResultFillsAnEmptyArea : Prop :=
  ∀ (skipped : List Word) (w : Word) (s : State),
    let d := s.dev.passWords skipped
    d.place = .resultHead →
      (∀ r, d.mailbox.pending = some r → w = 0 →
        ∃ t : State, exec (.resultAreaPassing skipped w) s = .next t
          ∧ t.dev.mailbox = { d.mailbox with written := true }
          ∧ t.dev.port.frame.ringOut = d.port.frame.ringOut ++ [d.mailbox.nodeAddress.setWidth 16]
          ∧ ∀ tail : List Word, tail.length = 15 →
              (t.dev.passWords tail).port.frame.ringOut =
                d.port.frame.ringOut ++ [d.mailbox.nodeAddress.setWidth 16, natWord r.code.code, packBytes r.tag r.command]
                  ++ r.data.toList)
      ∧ (d.mailbox.pending = none ∨ w ≠ 0 → exec (.resultAreaPassing skipped w) s = .next { s with dev := d.passPlain w })

/-- R13: the two CRC words. The frame's incoming CRC is compared with the words received; the outgoing CRC leaves as it is where they match
and complemented where they do not. That both words leave when the low one has come is the model's choice (log 14). -/
def Obligations.CrcWordsAreCheckedAndReplaced : Prop :=
  ∀ (skipped : List Word) (high low : Word) (s : State),
    let d := s.dev.passWords skipped
    let f := d.port.frame
    d.place = .crcHigh →
      ∃ g : FramePassage, exec (.crcPassing skipped high low) s = .next { s with dev := d.setFrame g }
        ∧ (g.crcGood = true ↔ high ++ low = ~~~f.crcIn)
        ∧ (high ++ low = ~~~f.crcIn → g.ringOut = f.ringOut ++ [highHalf (~~~f.crcOut), lowHalf (~~~f.crcOut)])
        ∧ (high ++ low ≠ ~~~f.crcIn → g.ringOut = f.ringOut ++ [highHalf f.crcOut, lowHalf f.crcOut])
        ∧ g.position = f.position + 2 ∧ g.passage = f.passage ∧ g.staging = f.staging

/-- R2, R13: a whole frame with N slots, from W0 to its CRC words. It leaves with as many words as it came with; the device finds it good
exactly where its CRC words match; and it leaves with CRC words that match the words sent where it is good, and with their complement
where it is not, whatever the device has inserted. That W0 starts anew whatever was in passage, and that both CRC words leave together, are
the model's choices (logs 22 and 14). -/
def Obligations.GoodFrameLeavesGood : Prop :=
  ∀ (w0 : Word) (body : List Word) (high low : Word) (s : State) (n : Nat),
    let crc := fun ws : List Word => ~~~(ws.foldl crcWord (BitVec.allOnes 32))
    s.dev.lines.rstn = true → frameKind w0 = cycleKind → slotCount w0 = n → 16 ≤ n → n ≤ 128 → body.length = n + 31 →
      ∃ t u : State, exec (.cycleFrameW0 w0) s = .next t ∧ exec (.crcPassing body high low) t = .next u
        ∧ u.dev.port.frame.passage = .cycle n ∧ u.dev.port.frame.position = n + 34 ∧ u.dev.port.frame.ringOut.length = n + 34
        ∧ (u.dev.port.frame.crcGood = true ↔ high ++ low = crc (w0 :: body))
        ∧ (let sent := crc (u.dev.port.frame.ringOut.take (n + 32))
           u.dev.port.frame.ringOut.drop (n + 32) =
            if u.dev.port.frame.crcGood = true then [highHalf sent, lowHalf sent] else [highHalf (~~~sent), lowHalf (~~~sent)])

/-- R3, R13, R14, R15, R17, R19, R107, R170: a bad completion, which is the end of any CYCLE frame that is not whole with matching CRC words and an unlost signal:
it counts, reloads the countdown, raises the bad run and raises FRAME_BAD with the new bad run, stamped with the new count. A LOCKED link whose
new bad run reaches badLimit becomes LOST, with LINK_LOST value 2 and the same stamp; in any other case no LINK_LOST is raised. Nothing that the
frame staged reaches a channel, the tracker, the current control word, the Monitor or the Mailbox, and a result written into it stays
pending. A CYCLE unit with constant input takes its clock as at a good completion, or none while a constant hold is true. Where terms and timers
read only constants, a recording Capture Buffer at counter 0 adds a record marked BAD with the values as they stood, one at another counter none.
That a loss of signal ends the frame by an operand of the row is the model's form (log 24). -/
def Obligations.BadFrameDeliversNothing : Prop :=
  ∀ (skipped : List Word) (loss : Bool) (s : State),
    let d := s.dev.passWords skipped
    let good := ∃ n, d.port.frame.passage = .cycle n ∧ d.port.frame.position = n + 34 ∧ d.port.frame.crcGood = true ∧ loss = false
    d.lines.rstn = true → (d.port.frame.passage = .malformed ∨ ∃ n, d.port.frame.passage = .cycle n) → ¬good →
      ∃ t : State, exec (.cycleCompletion skipped loss) s = .next t
        ∧ t.dev.port.cycleCount = d.port.cycleCount + 1 ∧ t.dev.port.timeoutCountdown = d.slotMap.cycleTimeout
        ∧ t.dev.port.badRun = min 255 (d.port.badRun + 1)
        ∧ t.dev.port.frame.staging = {} ∧ t.dev.port.frame.passage = .idle
        ∧ t.dev.channels = d.channels ∧ t.dev.speed = d.speed
        ∧ t.dev.port.permitRequest = d.port.permitRequest ∧ t.dev.port.triggerRequest = d.port.triggerRequest
        ∧ t.dev.capture.lastRequest = d.capture.lastRequest
        ∧ t.dev.monitor.lastNotice = d.monitor.lastNotice ∧ t.dev.monitor.lastAssert = d.monitor.lastAssert
        ∧ (d.mailbox.executing = none → t.dev.mailbox = { d.mailbox with written := false })
        ∧ (d.port.link = .locked → t.dev.port.link = if d.slotMap.badLimit ≤ min 255 (d.port.badRun + 1) then .lost else .locked)
        ∧ (d.port.link ≠ .locked → t.dev.port.link = d.port.link)
        ∧ d.events.records <+: t.dev.events.records
        ∧ d.events.Told t.dev.events .frameBad 0 (d.port.cycleCount + 1) (BitVec.ofNat 16 (min 255 (d.port.badRun + 1)))
        ∧ (d.port.link = .locked → d.slotMap.badLimit ≤ min 255 (d.port.badRun + 1) →
            d.events.ToldAnySource t.dev.events .linkLost (d.port.cycleCount + 1) 2)
        ∧ (d.port.link ≠ .locked ∨ min 255 (d.port.badRun + 1) < d.slotMap.badLimit → d.events.Silent t.dev.events .linkLost)
        ∧ (∀ k : Fin 6, d.timers[k].clock = .cycle → d.timers[k].input.isFixed = true →
            (d.timers[k].hold = .fixed false → t.dev.timers[k] = d.timers[k].takeClock.1)
            ∧ (d.timers[k].hold = .fixed true → t.dev.timers[k] = d.timers[k]))
        ∧ (d.Unread →
            let x := d.capture
            let recording := x.state = .running ∨ x.state = .postfill
            (recording → x.counter = 0 → ∃ r : CaptureRecord, t.dev.capture.records = pushRecord x.records r
              ∧ r.stamp = d.port.cycleCount + 1 ∧ r.good = false ∧ r.lead = d.speed.lead ∧ r.breakState = d.monitor.state
              ∧ (r.mark = true ↔ x.state = .postfill ∧ x.markOwed = true)
              ∧ r.entries = x.channels.map fun c => (d.channels[c].filtered, d.channels[c].validity))
            ∧ (recording → t.dev.capture.counter = if x.counter + 1 < x.decimation then x.counter + 1 else 0)
            ∧ (recording → x.counter ≠ 0 → t.dev.capture.records = x.records ∧ t.dev.capture.state = x.state)
            ∧ (¬recording → t.dev.capture = x))

/-- R3, R13 to R16, R18, R19, R29, R45, R49, R84, R92, R107, R137, R170, R174, R179, R184, R190: a good completion, which is the end of a whole CYCLE frame with
matching CRC words and an unlost signal, locks the link (with LINK_LOCKED value 0 from SEARCHING and 1 from LOST), clears the bad run and reloads
the countdown. The deliveries leave a device
`before`: it has counted, its control and break words are taken as staged, every channel has taken its own staged sample and no other, the
tracker has taken the speed channel's new filtered value (or has lost a FRESH channel to the fault code), and a result written into the frame
is delivered. A command staged for this node, which is not node 0, is then handed to the Mailbox of that device with its tag, as its row of
the table is; one that names no table, part, action or order answers BAD_PARAM (for an
unknown action in UNCONFIGURED this is the model's reading of R174 with R180, log 23); without one, that device is what the completion leaves. The command's result stands unless a commit still waits; and the
command is the last event of all where no clock, recording or timer write comes with it, with which the order is free (log 3, log 28). A CYCLE
unit with constant input takes one clock, or none while a constant hold is true, unless a timer write or SOFT_RESET comes with it. Where nothing else waits (terms and
timers read only constants, no token, no new trigger request), each zone in PREHEAT or TRACK whose channel was sampled starts its update with
the new values, one in HOLD whose channel returns resumes first, and without a command the Capture Buffer, recording at counter 0, adds the
record of this completion. The order of samples, tracker, arrivals, recording and command is read from R16, R36, R45 and R170 (log 15).
That a loss of signal ends the frame by an operand of the row is the model's form (log 24). -/
def Obligations.GoodFrameDeliversWhatItStaged : Prop :=
  ∀ (skipped : List Word) (loss : Bool) (s : State),
    let d := s.dev.passWords skipped
    let g := d.port.frame.staging
    let good := ∃ n, d.port.frame.passage = .cycle n ∧ d.port.frame.position = n + 34 ∧ d.port.frame.crcGood = true ∧ loss = false
    let staged := fun (tag : Byte) (cmd : Cmd) => ∃ (node code third : Word) (rest : List Word),
      g.command = node :: code :: third :: rest ∧ node = d.mailbox.nodeAddress.setWidth 16 ∧ d.mailbox.nodeAddress ≠ 0
        ∧ tag = lowByte third ∧ cmd = Cmd.ofCode (lowByte code) fun i => rest.getD i 0
    let delivers := fun before : Device =>
      before.port.cycleCount = d.port.cycleCount + 1 ∧ before.port.link = .locked ∧ before.port.badRun = 0
      ∧ (d.port.link = .searching → d.events.ToldAnySource before.events .linkLocked before.port.cycleCount 0)
      ∧ (d.port.link = .lost → d.events.ToldAnySource before.events .linkLocked before.port.cycleCount 1)
      ∧ (d.port.link = .locked → d.events.Silent before.events .linkLocked)
      ∧ before.port.timeoutCountdown = d.slotMap.cycleTimeout ∧ before.port.frame.staging = {} ∧ before.port.frame.passage = .idle
      ∧ before.port.permitRequest = (match g.control with
          | some w => w.getLsbD 0
          | none => d.port.permitRequest)
      ∧ before.port.triggerRequest = (match g.control with
          | some w => w.getLsbD 1
          | none => d.port.triggerRequest)
      ∧ before.monitor.lastNotice = (match g.breakWord with
          | some w => highByte w
          | none => d.monitor.lastNotice)
      ∧ before.monitor.lastAssert = (match g.breakWord with
          | some w => lowByte w
          | none => d.monitor.lastAssert)
      ∧ (∀ c : Fin 32, before.channels[c] = (match g.inputs[c] with
          | some w => (d.channels[c].takeSample w).1
          | none => d.channels[c]))
      ∧ before.speed = (let c := d.channels[d.speed.speedChannel]
          match g.inputs[d.speed.speedChannel] with
          | some w =>
            if w = sensorFault then (if c.validity = .fresh then d.speed.lose else d.speed)
            else if c.kind = .speed then d.speed.takeSample (c.takeSample w).1.filtered else d.speed
          | none => d.speed)
      ∧ (d.mailbox.executing = none → before.mailbox = { d.mailbox with
          pending := if d.mailbox.written = true then none else d.mailbox.pending, written := false })
    let nothingElse := d.Unread
      ∧ (∀ w, g.breakWord = some w → (highByte w ||| lowByte w) &&& d.monitor.membership = 0)
      ∧ ∀ w, g.control = some w → w.getLsbD 1 = true → d.capture.lastRequest = true
    let updates := fun before : Device => ∀ (z : Fin 12) (w : Word),
      let x := d.zones[z]
      let fed : Device := { d with channels := before.channels, speed := before.speed }
      g.inputs[x.measChannel] = some w → w ≠ sensorFault →
        (x.mode = .preheat ∨ x.mode = .track → before.zones[z] = (fed.zoneArrival z).zones[z])
        ∧ (x.mode = .hold → d.channels[x.measChannel].validity ≠ .fresh → d.holdDemand z = false →
            before.zones[z] = ((fed.resumeZone z).zoneArrival z).zones[z])
    d.lines.rstn = true → good →
      ∃ t before : State, exec (.cycleCompletion skipped loss) s = .next t ∧ delivers before.dev
        ∧ (nothingElse → updates before.dev)
        ∧ ((∀ tag cmd, staged tag cmd → cmd.writesTimer = false ∧ cmd ≠ .softReset) → ∀ k : Fin 6,
            d.timers[k].clock = .cycle → d.timers[k].input.isFixed = true →
              (d.timers[k].hold = .fixed false → t.dev.timers[k] = d.timers[k].takeClock.1)
              ∧ (d.timers[k].hold = .fixed true → t.dev.timers[k] = d.timers[k]))
        ∧ (nothingElse → (∀ tag cmd, ¬staged tag cmd) → d.capture.counter = 0 → d.capture.state = .running ∨ d.capture.state = .postfill →
            ∃ r : CaptureRecord, t.dev.capture.records = pushRecord d.capture.records r
              ∧ r.stamp = d.port.cycleCount + 1 ∧ r.good = true ∧ r.lead = before.dev.speed.lead ∧ r.breakState = d.monitor.state
              ∧ r.entries = d.capture.channels.map fun c => (before.dev.channels[c].filtered, before.dev.channels[c].validity))
        ∧ t.dev.port.link = .locked ∧ t.dev.port.badRun = 0 ∧ t.dev.port.timeoutCountdown = d.slotMap.cycleTimeout
        ∧ ((∀ tag cmd, ¬staged tag cmd) → t = before)
        ∧ ∀ tag cmd, staged tag cmd →
            let taken := before.dev.handOff tag cmd
            ((∀ k : Fin 6, d.timers[k].clock ≠ .cycle) → cmd.writesTimer = false → d.capture.state = .idle ∨ d.capture.state = .frozen →
              cmd.code ≠ 14 → t = { before with dev := taken })
            ∧ (∀ i : Instr, cmd.row tag = some i → ∀ x : State, exec i x = .next { x with dev := x.dev.handOff tag cmd })
            ∧ (cmd.row tag = none ↔ cmd = .invalid cmd.code)
            ∧ (∀ code : Byte, cmd = .invalid code → ∀ x : Device, x.Free → x.handOff tag cmd = x.setResult .badParam tag code [])
            ∧ (taken.mailbox.executing = none → t.dev.mailbox = taken.mailbox)
            ∧ (cmd ≠ .softReset → t.dev.port.cycleCount = d.port.cycleCount + 1)

/-! ## Ticks and lines -/

/-- R15, R19, R21, R37, R89, R107, R140: one tick while RSTN is high, at every block that counts in ticks. The cycle timeout countdown loses one down
to 0, and a LOCKED link whose countdown ends becomes LOST. Every channel but one in NONE ages by one tick and takes the validity that its
limits give; its values stand. A purge whose count is above 1 goes on with one less; at the end of its count the zone leaves PURGE, or has
entered it anew. A TICK unit with constant input and hold takes one clock, and a CYCLE or MARK unit with a constant input none. Where terms and
timers read only constants and no term is deferred, a confirmation countdown above 1 goes on with one less and one more tick in SUSPECT, and
outside SUSPECT the Monitor stands. -/
def Obligations.TickActsAtEveryBlock : Prop :=
  ∀ s : State, s.dev.lines.rstn = true → ∃ t : State, exec .tick s = .next t
    ∧ t.dev.port.timeoutCountdown = s.dev.port.timeoutCountdown - 1
    ∧ t.dev.port.link = (if s.dev.port.timeoutCountdown = 1 ∧ s.dev.port.link = .locked then .lost else s.dev.port.link)
    ∧ t.dev.port.cycleCount = s.dev.port.cycleCount ∧ t.dev.lines = s.dev.lines
    ∧ (∀ z : Fin 12,
        let x := s.dev.zones[z]
        let y := t.dev.zones[z]
        x.mode = .purge →
          (1 < x.purgeCount → y.mode = .purge ∧ y.purgeCount = x.purgeCount - 1 ∧ y.u = x.u)
          ∧ (x.purgeCount ≤ 1 → y.mode = .purge → y.purgeCount = x.purgeTime))
    ∧ (∀ k : Fin 6,
        let x := s.dev.timers[k]
        x.input.isFixed = true →
          (x.clock = .tick → x.hold = .fixed false → t.dev.timers[k] = x.takeClock.1)
          ∧ (x.clock = .tick → x.hold = .fixed true → t.dev.timers[k] = x)
          ∧ (x.clock = .cycle ∨ x.clock = .mark → t.dev.timers[k] = x))
    ∧ (s.dev.Unread → (∀ j : Fin 8, s.dev.terms[j].deferred = false) →
        (s.dev.monitor.state = .suspect → 1 < s.dev.monitor.countdown →
          t.dev.monitor = { s.dev.monitor with
            countdown := s.dev.monitor.countdown - 1, suspectTicks := min 65535 (s.dev.monitor.suspectTicks + 1) })
        ∧ (s.dev.monitor.state ≠ .suspect → t.dev.monitor = s.dev.monitor))
    ∧ ∀ c : Fin 32,
        let x := s.dev.channels[c]
        let y := t.dev.channels[c]
        let age := min 65535 (x.age + 1)
        (x.validity = .none → y = x)
          ∧ (x.validity ≠ .none →
              y.age = age ∧ y.raw = x.raw ∧ y.value = x.value ∧ y.filtered = x.filtered
              ∧ y.validity = (if x.validity ≠ .failed ∧ x.failLimit ≤ age then .failed
                  else if x.validity = .fresh ∧ x.staleLimit ≤ age then .stale else x.validity))

/-- R15, R19, R37, R49, R82, R86, R90, R103: the three expiries at channels and at the Ring Port, each by itself: a FRESH channel reaches its
staleLimit, a FRESH or STALE one its failLimit, and the cycle timeout countdown its end. Where the speed channel leaves FRESH the tracker loses
its state, with v and L held. Where terms and timers read only constants, the zones that measure the channel follow it, and no other zone moves:
a channel that becomes STALE takes PREHEAT and TRACK to HOLD, with ZONE_HOLD value 1; one that becomes FAILED takes PREHEAT, TRACK and HOLD to
FAULT, with ZONE_FAULT value 1 after its own CHANNEL_FAILED and in ascending zone order, and is deferred in PURGE. Where the expiry is not due,
nothing changes. That a row for one expiry is the tick at that unit alone is the model's choice (log 9). -/
def Obligations.AgeAndTimeoutExpiries : Prop :=
  ∀ (c : Fin 32) (s : State), s.dev.lines.rstn = true →
    let x := s.dev.channels[c]
    let age := min 65535 (x.age + 1)
    let trackerFollows := fun t : State => t.dev.speed =
      if c = s.dev.speed.speedChannel ∧ x.validity = .fresh then { s.dev.speed with state := .unknown, history := [], a := 0 } else s.dev.speed
    let othersStand := fun t : State => ∀ z : Fin 12, s.dev.zones[z].measChannel ≠ c → t.dev.zones[z] = s.dev.zones[z]
    let told := fun (t : State) (kind : EventKind) (source : Nat) (value : Word) =>
      s.dev.events.Told t.dev.events kind source s.dev.port.cycleCount value
    let staleSeen := fun t : State => othersStand t ∧ ∀ z : Fin 12, s.dev.zones[z].measChannel = c →
      let y := s.dev.zones[z]
      (y.mode = .preheat →
          t.dev.zones[z] = { y with mode := .hold, returnMode := .preheat, bumpless := false } ∧ told t .zoneHold z.val 1)
        ∧ (y.mode = .track →
          t.dev.zones[z] = { y with mode := .hold, returnMode := .track, bumpless := false } ∧ told t .zoneHold z.val 1)
        ∧ (y.mode ≠ .preheat → y.mode ≠ .track → t.dev.zones[z] = y)
    let failureSeen := fun t : State => othersStand t ∧ ∀ z : Fin 12, s.dev.zones[z].measChannel = c →
      let y := s.dev.zones[z]
      (y.mode = .preheat ∨ y.mode = .track ∨ y.mode = .hold →
          t.dev.zones[z] = { y with
            mode := .fault, u := y.faultOutput, i := 0, limitDir := .none, purgeCount := 0, faultDeferred := false, returnMode := .none
            bumpless := false }
          ∧ told t .zoneFault z.val 1)
        ∧ (y.mode = .purge → t.dev.zones[z] = { y with faultDeferred := true })
        ∧ (y.mode = .off ∨ y.mode = .fault → t.dev.zones[z] = y)
    let failureTold := fun t : State => told t .channelFailed c.val 2
      ∧ (let joined := t.dev.events.records.drop s.dev.events.records.length
        ((joined.filter fun e => e.kind = .zoneFault).map fun e => e.source.toNat).Pairwise (· < ·)
          ∧ ∀ (before after : List EventRecord) (e : EventRecord), joined = before ++ e :: after → e.kind = .zoneFault →
              ∃ f ∈ before, f.kind = .channelFailed)
    (x.validity = .fresh → x.staleLimit ≤ age →
      ∃ t : State, exec (.channelAgeStale c) s = .next t
        ∧ t.dev.channels[c].validity = (if x.failLimit ≤ age then .failed else .stale) ∧ t.dev.channels[c].age = age
        ∧ (∀ i : Fin 32, i ≠ c → t.dev.channels[i] = s.dev.channels[i]) ∧ trackerFollows t
        ∧ (x.enableStale = true → told t .channelStale c.val (toWord x.filtered))
        ∧ (s.dev.Unread → (age < x.failLimit → staleSeen t) ∧ (x.failLimit ≤ age → failureSeen t ∧ failureTold t)))
    ∧ (x.validity = .fresh ∨ x.validity = .stale → x.failLimit ≤ age →
      ∃ t : State, exec (.channelAgeFailed c) s = .next t
        ∧ t.dev.channels[c].validity = .failed ∧ t.dev.channels[c].age = age
        ∧ (∀ i : Fin 32, i ≠ c → t.dev.channels[i] = s.dev.channels[i]) ∧ trackerFollows t
        ∧ (s.dev.Unread → failureSeen t ∧ failureTold t))
    ∧ (s.dev.port.timeoutCountdown = 1 →
      ∃ t : State, exec .cycleTimeoutExpiry s = .next t
        ∧ t.dev.port.timeoutCountdown = 0 ∧ t.dev.channels = s.dev.channels
        ∧ t.dev.port.link = (if s.dev.port.link = .locked then .lost else s.dev.port.link)
        ∧ (s.dev.port.link = .locked → s.dev.events.ToldAnySource t.dev.events .linkLost s.dev.port.cycleCount 1)
        ∧ (s.dev.port.link ≠ .locked → s.dev.events.Silent t.dev.events .linkLost))
    ∧ (x.validity ≠ .fresh ∨ age < x.staleLimit → exec (.channelAgeStale c) s = .next s)
    ∧ ((x.validity ≠ .fresh ∧ x.validity ≠ .stale) ∨ age < x.failLimit → exec (.channelAgeFailed c) s = .next s)
    ∧ (s.dev.port.timeoutCountdown ≠ 1 → exec .cycleTimeoutExpiry s = .next s)

/-- R77, R86, R89: the tick that ends a purge. With a deferred failure the zone enters FAULT with cause 3; otherwise it enters PREHEAT, seeded
from its measurement channel, and makes the entry check: a FAILED channel sends it to FAULT with cause 1, one that is not FRESH to HOLD with
cause 1, a hold demand to HOLD with cause 2. The tick acts at that zone alone (log 9). -/
def Obligations.PurgeExpiryReseedsOrFaults : Prop :=
  ∀ (z : Fin 12) (s : State), s.dev.lines.rstn = true → s.dev.zones[z].mode = .purge → s.dev.zones[z].purgeCount ≤ 1 →
    let x := s.dev.zones[z]
    let m := s.dev.channels[x.measChannel]
    let d := s.dev.setZone z { x with
      mode := .preheat, returnMode := .none, purgeCount := 0, faultDeferred := false, i := 0, limitDir := .none
      w := clamp x.spMin x.spMax m.filtered }
    let faulted := s.dev.setZone z { x with
      mode := .fault, u := x.faultOutput, i := 0, limitDir := .none, purgeCount := 0, faultDeferred := false, returnMode := .none }
    (x.faultDeferred = true → x.bumpless = false →
      exec (.purgeExpiry z) s = .next { s with dev := s.dev.runEffect { dev := faulted.raise .zoneFault z.val 3 } })
    ∧ (x.faultDeferred = false →
      let checked :=
        if m.validity = .failed then d.faultZone z 1
        else if m.validity ≠ .fresh then d.holdZone z 1
        else if d.holdDemand z = true then d.holdZone z 2
        else d
      exec (.purgeExpiry z) s = .next { s with dev := s.dev.runEffect { dev := checked } })

/-- R140, R142, R143, R157: the tick that ends the confirmation countdown declares the break with cause SOFT_TERM: the Monitor is BROKEN, the
record carries the ticks spent in SUSPECT with this one, every actuator in NONE enters its break phase by its delay, every zone that is not
OFF or in FAULT purges or is held for its purge, and a running capture takes the trigger. The tick acts at the Monitor alone (log 9). -/
def Obligations.ConfirmationExpiryDeclaresTheBreak : Prop :=
  ∀ s : State, s.dev.lines.rstn = true → s.dev.monitor.state = .suspect → s.dev.monitor.countdown ≤ 1 →
    ∃ (t : State) (r : BreakRecord), exec .confirmationExpiry s = .next t
      ∧ t.dev.monitor.state = .broken ∧ t.dev.monitor.countdown = 0 ∧ t.dev.monitor.suspectTicks = 0
      ∧ t.dev.monitor.declarations = s.dev.monitor.declarations + 1
      ∧ t.dev.monitor.history = pushBreakRecord s.dev.monitor.history r
      ∧ r = { cause := .softTerm, causeIndex := s.dev.lowestTermIndex .softBreak true, stamp := s.dev.port.cycleCount
              lead := s.dev.speed.lead, trackMask := s.dev.trackMask
              suspectDuration := min 65535 (s.dev.monitor.suspectTicks + 1), sequence := s.dev.monitor.declarations + 1 }
      ∧ s.dev.ReachedByBreak t.dev
      ∧ ∀ a : Fin 16, t.dev.actuators[a] =
          (if s.dev.actuators[a].phase ≠ .none then s.dev.actuators[a]
           else if s.dev.actuators[a].delay = 0 then { s.dev.actuators[a] with phase := .acting, countdown := 0 }
           else { s.dev.actuators[a] with phase := .delaying, countdown := s.dev.actuators[a].delay })

/-- R108 to R114: the clock at which a unit makes its terminal event, by mode. The unit is idle with its output as the mode gives (COUNT: its
count 0, a pending latch loaded, its output true), and the next unit of the ring of six takes one clock where it is clocked by CASCADE. A unit that is itself clocked by CASCADE takes no clock but
that of the unit before it, and one clocked by MARK none until the MARK level has been accepted. The clock acts at that unit alone (log 9); the latch word stands when the latch is loaded (log 11); that the
cascaded clock is an originating change of its own is read from R124 (log 18). -/
def Obligations.TimerExpiryMakesTheTerminalEvent : Prop :=
  ∀ (k : Fin 6) (s : State), s.dev.lines.rstn = true →
    let x := s.dev.timers[k]
    let after := fun y : Timer => Host.Outcome.next (φ := Fault) (ρ := Refusal) { s with dev := s.dev.runEffect {
      dev := s.dev.setTimer k y
      next := if s.dev.timers[k + 1].clock = .cascade then [Job.timerClock (k + 1) .cascade] else [] } }
    (x.clock = .cascade ∨ (x.clock = .mark ∧ s.dev.lines.mark = none) → exec (.timerExpiry k) s = .next s)
    ∧ (x.clock ≠ .cascade → (x.clock = .mark → s.dev.lines.mark ≠ none) → s.dev.level x.hold = false →
      (x.mode = .delay → x.counting = true → x.n ≤ x.count + 1 →
        exec (.timerExpiry k) s = after { x with counting := false, count := 0, output := x.inputLevel })
      ∧ (x.mode = .oneShot ∨ x.mode = .gap → x.counting = true → x.n ≤ x.count + 1 →
        exec (.timerExpiry k) s = after { x with counting := false, count := 0, output := false })
      ∧ (x.mode = .edge → x.counting = true →
        exec (.timerExpiry k) s = after { x with counting := false, count := 0, output := false })
      ∧ (x.mode = .count → x.inputLevel = false → x.n ≤ x.count + 1 →
        exec (.timerExpiry k) s = after { x with
          count := 0, output := true, n := if x.latchPending = true then x.latchN else x.n, latchPending := false }))

/-- R159, R170, R171: the recording that ends a WINDOW countdown freezes the buffer with that record as the newest, and the passing that ends
a break delay makes the actuator ACTING after its last source advance; an actuator that no OUTPUT entry binds, or in UNCONFIGURED,
is presented with no passing. Each acts at that block alone (log 9). -/
def Obligations.CountdownsOfCaptureAndActuatorEnd : Prop :=
  (∀ (good : Bool) (s : State), s.dev.lines.rstn = true → s.dev.capture.state = .postfill → s.dev.capture.mode = .window →
    s.dev.capture.counter = 0 → s.dev.capture.countdown ≤ 1 →
      ∃ t : State, exec (.captureWindowExpiry good) s = .next t
        ∧ t.dev.capture.state = .frozen ∧ t.dev.capture.countdown = 0 ∧ t.dev.capture.markOwed = false
        ∧ t.dev.capture.records = pushRecord s.dev.capture.records
            { stamp := s.dev.port.cycleCount, good := good, lead := s.dev.speed.lead, breakState := s.dev.monitor.state
              mark := s.dev.capture.markOwed
              entries := s.dev.capture.channels.map fun c => (s.dev.channels[c].filtered, s.dev.channels[c].validity) })
  ∧ (∀ (a : Fin 16) (s : State), s.dev.lines.rstn = true → s.dev.mailbox.ready = true → s.dev.actuators[a].phase = .delaying →
    s.dev.actuators[a].countdown ≤ 1 → (∃ (i : Fin 64) (e : SlotEntry), s.dev.slotMap.entries[i] = some e ∧ e.role = .output a) →
      let x := s.dev.actuators[a]
      let source := s.dev.sourceValue x
      let v := if x.source.kind = .zone ∧ x.converging = false then source else moveToward x.slewMax source x.value
      exec (.actuatorDelayExpiry a) s = .next { s with dev := s.dev.setActuator a { x with
        unseen := false, value := v, converging := if v = source then false else x.converging, phase := .acting, countdown := 0 } })
  ∧ (∀ (a : Fin 16) (s : State), s.dev.mailbox.ready = false
      ∨ (∀ (i : Fin 64) (e : SlotEntry), s.dev.slotMap.entries[i] = some e → e.role ≠ .output a) →
        exec (.actuatorDelayExpiry a) s = .next s)

/-- R124, R125: the tick at the deferred terms, which are examined in ascending index. Each ceases to be deferred and takes the entry that its
inputs then select; where that is a new value, it raises TERM_CHANGED where its flag is on, and starts a new cascade. Where no term is bound and
no timer reads one, each is examined, and its change settled, before the next; a single deferred term is so whatever reads it; and where no
term is deferred nothing changes. Whether that change counts within its own cascade is a free value (log 5): the statement holds for every
value of it. -/
def Obligations.DeferredTermTakesItsEntry : Prop :=
  ∀ s : State, s.dev.lines.rstn = true →
    let examined := fun (x : Device) (j : Fin 8) =>
      let v := x.selected x.terms[j]
      let y := x.setTerm j { x.terms[j] with deferred := false, value := v }
      x.runEffect {
        dev := if v ≠ x.terms[j].value ∧ x.terms[j].eventFlag = true then y.raise .termChanged j.val (boolWord v) else y
        counts := Config.deferredChangeCounts }
    ((∀ j : Fin 8, s.dev.terms[j].binding = .none) → (∀ k : Fin 6, s.dev.timers[k].input.isTerm = false) → s.dev.PermitSafe →
      exec .deferredTermSettle s = .next { s with
        dev := ((List.finRange 8).filter fun j => s.dev.terms[j].deferred).foldl examined s.dev })
    ∧ ((∀ j : Fin 8, s.dev.terms[j].deferred = false) → exec .deferredTermSettle s = .next s)
    ∧ ∀ j : Fin 8, s.dev.terms[j].deferred = true → (∀ i : Fin 8, i ≠ j → s.dev.terms[i].deferred = false) →
        let v := s.dev.selected s.dev.terms[j]
        let d := s.dev.setTerm j { s.dev.terms[j] with deferred := false, value := v }
        exec .deferredTermSettle s = .next { s with dev := s.dev.runEffect {
          dev := if v ≠ s.dev.terms[j].value ∧ s.dev.terms[j].eventFlag = true then d.raise .termChanged j.val (boolWord v) else d
          counts := Config.deferredChangeCounts } }

/-- R52, R53, R107, R108, R121, R136: the lines. A change of an accepted level is taken once, at once; a rise of MARK also gives one clock to every MARK
unit: a MARK unit with constant input and hold takes exactly that clock, and none while its hold is true; at a fall, and with another clock
than MARK and CASCADE, a unit with constant input stands. A first acceptance sets the level, without an edge for the units that read it (log 12) and without a MARK clock. A named transition that is not one (the level already
stands, or a level was already accepted) changes nothing. That rows are acceptances, not samples, is the model's choice (log 20), and so is that a first acceptance which makes
the WBRK source active is a rise of the hard level (log 32). -/
def Obligations.LineTransitionsAreTaken : Prop :=
  ∀ (level : Bool) (s : State), s.dev.lines.rstn = true →
    (s.dev.lines.mark = some (!level) →
      let events := Job.markLevel level :: if level = true then s.dev.clockRoots .mark else []
      exec (.markLevelChange level) s = .next { s with dev := s.dev.runRoots id events })
    ∧ (s.dev.lines.mark = some (!level) → ∃ t : State, exec (.markLevelChange level) s = .next t
      ∧ t.dev.lines = { s.dev.lines with mark := some level }
      ∧ ∀ k : Fin 6,
          let x := s.dev.timers[k]
          x.input.isFixed = true →
            (level = true → x.clock = .mark → x.hold = .fixed false → t.dev.timers[k] = x.takeClock.1)
            ∧ (level = true → x.clock = .mark → x.hold = .fixed true → t.dev.timers[k] = x)
            ∧ (level = false ∨ x.clock = .tick ∨ x.clock = .cycle → t.dev.timers[k] = x))
    ∧ (s.dev.lines.mark = some (!level) → level = false ∨ (∀ k : Fin 6, s.dev.timers[k].clock ≠ .mark) →
      let taken := { s.dev with lines := { s.dev.lines with mark := some level } }
      exec (.markLevelChange level) s = .next { s with dev := s.dev.runEffect { dev := taken } })
    ∧ (s.dev.lines.wbrk = some (!level) →
      let taken := { s.dev with lines := { s.dev.lines with wbrk := some level } }
      exec (.wbrkLevelChange level) s = .next { s with dev := s.dev.runEffect { dev := taken } })
    ∧ (s.dev.lines.mark = none →
      let taken := { s.dev with
        lines := { s.dev.lines with mark := some level }
        timers := s.dev.timers.map fun x => if x.input = .markLevel then
          { x with inputLevel := level, count := if x.mode = .count ∧ level = true then 0 else x.count } else x }
      exec (.markFirstAcceptance level) s = .next { s with dev := s.dev.runEffect { dev := taken } })
    ∧ (s.dev.lines.wbrk = none →
      let taken := { s.dev with
        lines := { s.dev.lines with wbrk := some level }
        timers := s.dev.timers.map fun x => if x.input = .wbrkLevel then
          { x with inputLevel := level, count := if x.mode = .count ∧ level = true then 0 else x.count } else x }
      exec (.wbrkFirstAcceptance level) s = .next { s with dev := s.dev.runEffect { dev := taken } })
    ∧ (s.dev.lines.mark ≠ some (!level) → exec (.markLevelChange level) s = .next s)
    ∧ (s.dev.lines.wbrk ≠ some (!level) → exec (.wbrkLevelChange level) s = .next s)
    ∧ (s.dev.lines.mark ≠ none → exec (.markFirstAcceptance level) s = .next s)
    ∧ (s.dev.lines.wbrk ≠ none → exec (.wbrkFirstAcceptance level) s = .next s)

/-- Chapters 1 to 11, their POWER-ON and configuration rules: no tick, expiry or line transition changes the Slot Map, a configuration field of
any block, a profile bank, the part state or the node address; a timer's N and the Capture Buffer's P change only by the load of a latch that
was pending (R117, R168), whose word stands (log 11). -/
def Obligations.TimeAndLinesKeepTheConfiguration : Prop :=
  ∀ (i : Instr) (s t : State), i.timeOrLine = true → exec i s = .next t → s.dev.SameConfig t.dev

/-! ## Mailbox: the device, the ring and the channels -/

/-- R10, R180, R182, R183, R185, R189: a code outside the catalogue is refused with its own echo; IDENTIFY and READ_STATUS answer their words and
change nothing else; and every field of the status word is the view of the state that R10 names, in the bits of R1. -/
def Obligations.IdentityAndStatusWordsAnswer : Prop :=
  (∀ (tag code : Byte) (s : State), s.dev.Free →
    let d := s.dev
    let link : Word := match d.port.link with
      | .searching => 0
      | .locked => 1
      | .lost => 2
    (code = 0 ∨ 19 < code.toNat → Answers (.unknownCommand tag code) s tag code .unknownCommand [])
    ∧ Answers (.identify tag) s tag 1 .ok [2416, 1, d.mailbox.nodeAddress.setWidth 16, if d.mailbox.ready = true then 1 else 0, link]
    ∧ Answers (.readStatus tag) s tag 2 .ok
        [d.statusWord, d.port.cycleCount.extractLsb' 16 16, d.port.cycleCount.extractLsb' 0 16, link, natWord d.port.badRun,
         natWord d.events.records.length]
    ∧ d.statusWord.getLsbD 10 = false ∧ d.statusWord.getLsbD 11 = false)
  ∧
  (∀ d : Device,
    let w := d.statusWord
    w.getLsbD 0 = d.mailbox.ready
    ∧ w.extractLsb' 1 2 = (match d.monitor.state with
        | .disarmed => 0#2
        | .armed => 1#2
        | .suspect => 2#2
        | .broken => 3#2)
    ∧ (w.getLsbD 3 = true ↔ d.permit = .asserted)
    ∧ (w.extractLsb' 4 3 = 0#3 ↔ d.events.records = [])
    ∧ (∀ e ∈ d.events.records, (w.extractLsb' 4 3).toNat ≤ e.kind.priority)
    ∧ (d.events.records ≠ [] → ∃ e ∈ d.events.records, (w.extractLsb' 4 3).toNat = e.kind.priority)
    ∧ w.extractLsb' 7 3 = (match d.capture.state with
        | .idle => 0#3
        | .running => 1#3
        | .waiting => 2#3
        | .postfill => 3#3
        | .frozen => 4#3)
    ∧ w.getLsbD 10 = d.mailbox.executing.isSome ∧ w.getLsbD 11 = d.mailbox.pending.isSome ∧ w.getLsbD 12 = d.events.overrun
    ∧ (w.getLsbD 13 = true ↔ ∃ z : Fin 12, d.zones[z].mode = .fault)
    ∧ (w.getLsbD 14 = true ↔ d.speed.state = .unknown) ∧ (w.getLsbD 15 = true ↔ d.port.link = .locked))

/-- R28, R41, R51, R70, R104, R120, R122, R143, R152, R165, R182, R183, R184, R188: the words of the mailbox. Every condition has its own address word, by class and index, and a word names a condition only where it is that
condition's word; each condition is true while the state behind it is the one that its class names. The words of a command area spell the commands of the table, for every code of the catalogue: a table command by the table in
the high byte of P0, the record index in its low byte, and the part in P1; CAPTURE_CONTROL by its action and READ_EVENTS by its order in P0;
the others by their parameter words as they stand. A code outside 1 to 19 spells none of them. The codes that results and events carry are
those of the rules: channel kinds, validities, speed and link states, zone modes and their return, limit directions, timer modes, edges and
clocks, bindings, break states and causes, actuator sources, actions and phases, capture modes and states, result codes, and the event kinds
with the priorities of their classes. -/
def Obligations.AddressesAndCommandWordsAgree : Prop :=
  ((∀ c : Cond, Cond.ofWord c.toWord = some c)
     ∧ (∀ (w : Word) (c : Cond), Cond.ofWord w = some c → c.toWord = w)
     ∧ (∀ (k : Fin 6) (j : Fin 8) (z : Fin 12) (c : Fin 32),
         (Cond.timer k).toWord = packBytes 6 (BitVec.ofNat 8 k.val) ∧ (Cond.term j).toWord = packBytes 7 (BitVec.ofNat 8 j.val)
         ∧ (Cond.zoneFault z).toWord = packBytes 8 (BitVec.ofNat 8 z.val) ∧ (Cond.zoneHold z).toWord = packBytes 9 (BitVec.ofNat 8 z.val)
         ∧ (Cond.chanHi c).toWord = packBytes 10 (BitVec.ofNat 8 c.val) ∧ (Cond.chanLo c).toWord = packBytes 11 (BitVec.ofNat 8 c.val)
         ∧ (Cond.chanFailed c).toWord = packBytes 12 (BitVec.ofNat 8 c.val)
         ∧ (Cond.chanDiscrete c).toWord = packBytes 13 (BitVec.ofNat 8 c.val))
     ∧ [Cond.fixed false, .fixed true, .wbrkLevel, .markLevel, .permitRequest, .linkLocked, .captureFrozen].map Cond.toWord =
         [0, 1, 0x0100, 0x0101, 0x0102, 0x0200, 0x0500]
     ∧ [Cond.speed 0, .speed 1, .speed 2, .speed 3, .speed 4, .speed 5, .brk 0, .brk 1, .brk 2].map Cond.toWord =
         [0x0300, 0x0301, 0x0302, 0x0303, 0x0304, 0x0305, 0x0400, 0x0401, 0x0402]
     ∧ ∀ w : Word, 13 < (highByte w).toNat → Cond.ofWord w = none)
  ∧
  (∀ (d : Device) (k : Fin 6) (j : Fin 8) (z : Fin 12) (c : Fin 32),
     let holds := fun (x : Cond) (p : Prop) => d.level x = true ↔ p
     let x := d.channels[c]
     holds (.fixed false) False ∧ holds (.fixed true) True ∧ holds .wbrkLevel (d.lines.wbrk = some true)
       ∧ holds .markLevel (d.lines.mark = some true) ∧ holds .permitRequest (d.port.permitRequest = true)
       ∧ holds .linkLocked (d.port.link = .locked) ∧ holds (.speed 0) (d.speed.state = .unknown) ∧ holds (.speed 1) (d.speed.state = .stopped)
       ∧ holds (.speed 2) (d.speed.state = .crawl) ∧ holds (.speed 3) (d.speed.state = .accel) ∧ holds (.speed 4) (d.speed.state = .decel)
       ∧ holds (.speed 5) (d.speed.state = .steady) ∧ holds (.brk 0) (d.monitor.state = .armed) ∧ holds (.brk 1) (d.monitor.state = .suspect)
       ∧ holds (.brk 2) (d.monitor.state = .broken) ∧ holds .captureFrozen (d.capture.state = .frozen)
       ∧ holds (.timer k) (d.timers[k].output = true) ∧ holds (.term j) (d.terms[j].value = true)
       ∧ holds (.zoneFault z) (d.zones[z].mode = .fault) ∧ holds (.zoneHold z) (d.zones[z].mode = .hold)
       ∧ holds (.chanHi c) (x.hiSet = true) ∧ holds (.chanLo c) (x.loSet = true) ∧ holds (.chanFailed c) (x.validity = .failed)
       ∧ holds (.chanDiscrete c) (x.kind = .discrete
           ∧ ((x.validity = .failed ∧ x.failState = true) ∨ ((x.validity = .fresh ∨ x.validity = .stale) ∧ x.value ≠ 0))))
  ∧
  (∀ (p : Nat → Word) (r : Byte),
     (p 0 = packBytes 1 r → Cmd.ofCode 3 p = .writeSlotMap r (p 1) (p 2) (p 3) ∧ Cmd.ofCode 4 p = .readSlotMap r)
     ∧ (p 0 = packBytes 2 r → (p 1 = 0 → Cmd.ofCode 3 p = .writeChannelScale r (p 2) (p 3) (p 4) (p 5) (p 6) (p 7))
         ∧ (p 1 = 1 → Cmd.ofCode 3 p = .writeChannelLimits r (p 2) (p 3) (p 4) (p 5) (p 6) (p 7) (p 8))
         ∧ (1 < (p 1).toNat → Cmd.ofCode 3 p = .invalid 3)
         ∧ Cmd.ofCode 4 p = .readChannel r (p 1))
     ∧ (p 0 = packBytes 3 r → (p 1 = 0 → Cmd.ofCode 3 p = .writeActuatorSource r (p 2) (p 3) (p 4) (p 5) (p 6) (p 7))
         ∧ (p 1 = 1 → Cmd.ofCode 3 p = .writeActuatorBreak r (p 2) (p 3) (p 4) (p 5))
         ∧ (1 < (p 1).toNat → Cmd.ofCode 3 p = .invalid 3) ∧ Cmd.ofCode 4 p = .readActuator r (p 1))
     ∧ (p 0 = packBytes 4 r → (p 1 = 0 → Cmd.ofCode 3 p = .writeZoneSetup r (p 2) (p 3) (p 4) (p 5) (p 6) (p 7) (p 8))
         ∧ (p 1 = 1 → Cmd.ofCode 3 p = .writeZoneLoop r (p 2) (p 3) (p 4) (p 5) (p 6))
         ∧ (p 1 = 2 → Cmd.ofCode 3 p = .writeZoneSafety r (p 2) (p 3) (p 4) (p 5))
         ∧ (2 < (p 1).toNat → Cmd.ofCode 3 p = .invalid 3) ∧ Cmd.ofCode 4 p = .readZone r (p 1))
     ∧ (p 0 = packBytes 5 r → Cmd.ofCode 3 p = .writeTimer r (p 1) (p 2) (p 3) (p 4) (p 5) (p 6) ∧ Cmd.ofCode 4 p = .readTimer r)
     ∧ (p 0 = packBytes 6 r → Cmd.ofCode 3 p = .writeTerm r (p 1) (p 2) (p 3) (p 4) (p 5) (p 6) (p 7) (p 8)
         ∧ Cmd.ofCode 4 p = .readTerm r)
     ∧ (p 0 = packBytes 7 r → Cmd.ofCode 3 p = .writeBreakConfig r (p 1) (p 2) (p 3) (p 4) ∧ Cmd.ofCode 4 p = .readBreakConfig r)
     ∧ (p 0 = packBytes 8 r → Cmd.ofCode 3 p = .writeSpeedConfig r (p 1) (p 2) (p 3) (p 4) (p 5) ∧ Cmd.ofCode 4 p = .readSpeedConfig r)
     ∧ (p 0 = packBytes 9 r → Cmd.ofCode 3 p = .writeCaptureConfig r (p 1) (p 2) (p 3) #v[p 4, p 5, p 6, p 7]
         ∧ Cmd.ofCode 4 p = .readCaptureConfig r)
     ∧ (p 0 = packBytes 10 r → Cmd.ofCode 4 p = .readProfileShadow r (p 1))
     ∧ (p 0 = packBytes 11 r → Cmd.ofCode 4 p = .readProfileActive r (p 1))
     ∧ (p 0 = packBytes 12 r → Cmd.ofCode 4 p = .readBreakHistory r)
     ∧ (p 0 = packBytes 13 r → Cmd.ofCode 4 p = .readChannelState r)
     ∧ (p 0 = packBytes 14 r → Cmd.ofCode 4 p = .readZoneState r)
     ∧ (p 0 = packBytes 15 r → Cmd.ofCode 4 p = .readTimerState r)
     ∧ (∀ t : Byte, p 0 = packBytes t r → t = 0 ∨ 9 < t.toNat → Cmd.ofCode 3 p = .invalid 3)
     ∧ (∀ t : Byte, p 0 = packBytes t r → t = 0 ∨ 15 < t.toNat → Cmd.ofCode 4 p = .invalid 4))
  ∧
  (∀ p : Nat → Word,
     Cmd.ofCode 1 p = .identify ∧ Cmd.ofCode 2 p = .readStatus
     ∧ Cmd.ofCode 5 p = .writeProfile (p 0) #v[p 1, p 2, p 3, p 4, p 5, p 6, p 7, p 8, p 9]
     ∧ Cmd.ofCode 6 p = .commitProfile ∧ Cmd.ofCode 7 p = .configureDone ∧ Cmd.ofCode 8 p = .setZoneMode (p 0) (p 1)
     ∧ Cmd.ofCode 9 p = .setOutput (p 0) (p 1) ∧ Cmd.ofCode 10 p = .armBreak ∧ Cmd.ofCode 11 p = .resetBreak
     ∧ Cmd.ofCode 12 p = .breakNow ∧ Cmd.ofCode 13 p = .restorePermit
     ∧ (p 0 = 0 → Cmd.ofCode 14 p = .captureStart) ∧ (p 0 = 1 → Cmd.ofCode 14 p = .captureStop)
     ∧ (p 0 = 2 → Cmd.ofCode 14 p = .captureClear) ∧ (p 0 = 3 → Cmd.ofCode 14 p = .captureTrigger)
     ∧ (3 < (p 0).toNat → Cmd.ofCode 14 p = .invalid 14)
     ∧ Cmd.ofCode 15 p = .readCapture ∧ Cmd.ofCode 16 p = .rewindCapture
     ∧ (p 0 = 0 → Cmd.ofCode 17 p = .readEventsOldest) ∧ (p 0 = 1 → Cmd.ofCode 17 p = .readEventsUrgent)
     ∧ (1 < (p 0).toNat → Cmd.ofCode 17 p = .invalid 17)
     ∧ Cmd.ofCode 18 p = .clearEvents ∧ Cmd.ofCode 19 p = .softReset
     ∧ ∀ code : Byte, code = 0 ∨ 19 < code.toNat → Cmd.ofCode code p = .unknown code)
  ∧
  ([ChannelKind.temp, .speed, .percent, .discrete].map ChannelKind.code = [0, 1, 2, 3]
    ∧ [Validity.none, .fresh, .stale, .failed].map Validity.code = [0, 1, 2, 3]
    ∧ [SpeedState.unknown, .stopped, .crawl, .accel, .decel, .steady].map SpeedState.code = [0, 1, 2, 3, 4, 5]
    ∧ [LinkState.searching, .locked, .lost].map LinkState.code = [0, 1, 2]
    ∧ [Mode.off, .preheat, .track, .hold, .purge, .fault].map Mode.code = [0, 1, 2, 3, 4, 5]
    ∧ [ReturnMode.none, .preheat, .track, .purge].map ReturnMode.code = [0, 1, 2, 4]
    ∧ [LimitDir.none, .up, .down].map LimitDir.code = [0, 1, 2]
    ∧ [TimerMode.delay, .oneShot, .gap, .edge, .count].map TimerMode.code = [0, 1, 2, 3, 4]
    ∧ [EdgeSelect.rise, .fall, .both].map EdgeSelect.code = [0, 1, 2]
    ∧ [ClockSource.tick, .cycle, .mark, .cascade].map ClockSource.code = [0, 1, 2, 3]
    ∧ [Binding.none, .fireQualifier, .hardBreak, .softBreak, .webPresent, .captureTrigger, .zoneHold].map Binding.code
        = [0, 1, 2, 3, 4, 5, 6]
    ∧ [BreakState.disarmed, .armed, .suspect, .broken].map BreakState.code = [0, 1, 2, 3]
    ∧ [BreakCause.line, .token, .hardTerm, .softTerm, .command].map BreakCause.code = [1, 2, 3, 4, 5]
    ∧ [SourceKind.fixed, .zone, .term].map SourceKind.code = [0, 1, 2]
    ∧ [BreakAction.follow, .hold, .force, .ramp].map BreakAction.code = [0, 1, 2, 3]
    ∧ [Phase.none, .delaying, .acting].map Phase.code = [0, 1, 2]
    ∧ [CaptureMode.pre, .post, .window].map CaptureMode.code = [0, 1, 2]
    ∧ [CaptureState.idle, .running, .waiting, .postfill, .frozen].map CaptureState.code = [0, 1, 2, 3, 4]
    ∧ [ResultCode.ok, .unknownCommand, .badParam, .state, .configInvalid, .profileInvalid, .notReady, .sourceActive, .purging, .transition,
        .empty].map ResultCode.code = [0, 1, 2, 3, 4, 5, 6, 7, 8, 9, 10]
    ∧ [EventKind.breakDeclared, .breakSuspect, .suspectCleared, .breakReset].map (fun k => (k.code, k.priority))
        = [(1, 1), (2, 1), (3, 1), (4, 1)]
    ∧ [EventKind.zoneFault, .channelFailed, .permitDropped, .linkLost].map (fun k => (k.code, k.priority))
        = [(5, 2), (6, 2), (7, 2), (8, 2)]
    ∧ [EventKind.channelHi, .channelLo, .termChanged].map (fun k => (k.code, k.priority)) = [(9, 3), (10, 3), (11, 3)]
    ∧ [EventKind.channelStale, .channelFresh, .zoneHold, .zoneResume, .slotUnseen, .frameBad].map (fun k => (k.code, k.priority))
        = [(12, 4), (13, 4), (14, 4), (15, 4), (16, 4), (17, 4)]
    ∧ [EventKind.captureTriggered, .captureFrozen].map (fun k => (k.code, k.priority)) = [(18, 5), (19, 5)]
    ∧ [EventKind.commitDone, .permitRestored, .resetDone, .linkLocked].map (fun k => (k.code, k.priority))
        = [(20, 6), (21, 6), (22, 6), (23, 6)]
    ∧ ∀ c : Capture, c.flags = (if c.records = [] then 1 else 0) + (if 256 ≤ c.records.length then 2 else 0)
        + (if 512 ≤ c.records.length then 4 else 0))

/-- R5, R6, R28, R44, R58: the reads of the Slot Map, the channels, the tracker and the profile banks answer the fields as they stand, in the
rules' order, and change nothing else; a record index, a part or an entry index out of range is BAD_PARAM. The words that R5 does not give, of an empty entry and of STATUS and CONTROL, are 0 by R181 (log 16). -/
def Obligations.RingSpeedAndProfileReadsAnswer : Prop :=
  ∀ (tag record : Byte) (part : Word) (s : State), s.dev.Free →
    let d := s.dev
    (∀ i : Fin 64, record.toNat = i.val → Answers (.readSlotMap tag record) s tag 4 .ok (match d.slotMap.entries[i] with
      | none => [0, 0, 0]
      | some { slot := n, role := .input c } => [natWord n.val, 1, natWord c.val]
      | some { slot := n, role := .output a } => [natWord n.val, 2, natWord a.val]
      | some { slot := n, role := .status } => [natWord n.val, 3, 0]
      | some { slot := n, role := .control } => [natWord n.val, 4, 0]))
    ∧ (record.toNat = 64 → Answers (.readSlotMap tag record) s tag 4 .ok [natWord d.slotMap.cycleTimeout, natWord d.slotMap.badLimit])
    ∧ (64 < record.toNat → Answers (.readSlotMap tag record) s tag 4 .badParam [])
    ∧ (∀ c : Fin 32, record.toNat = c.val →
        let x := d.channels[c]
        (part = 0 → Answers (.readChannel tag record part) s tag 4 .ok
          [natWord x.kind.code, toWord x.gain, toWord x.offset, toWord x.lo, toWord x.hi, toWord x.alpha])
        ∧ (part = 1 → Answers (.readChannel tag record part) s tag 4 .ok
          [natWord x.staleLimit, natWord x.failLimit, toWord x.hiLimit, toWord x.loLimit, toWord x.hyst,
           if x.failState = true then 1 else 0, 0#13 ++ BitVec.ofBool x.enableStale ++ BitVec.ofBool x.enableLo ++ BitVec.ofBool x.enableHi])
        ∧ (1 < part.toNat → Answers (.readChannel tag record part) s tag 4 .badParam [])
        ∧ Answers (.readChannelState tag record) s tag 4 .ok
          [toWord x.raw, toWord x.value, toWord x.filtered, natWord x.age, natWord x.validity.code, boolWord x.hiSet, boolWord x.loSet,
           boolWord x.limited, boolWord (d.level (.chanDiscrete c))])
    ∧ (32 ≤ record.toNat → Answers (.readChannel tag record part) s tag 4 .badParam []
        ∧ Answers (.readChannelState tag record) s tag 4 .badParam [])
    ∧ (record = 0 → Answers (.readSpeedConfig tag record) s tag 4 .ok
        [natWord d.speed.speedChannel.val, toWord d.speed.crawlSpeed, toWord d.speed.runSpeed, toWord d.speed.accelBand,
         toWord d.speed.leadFactor])
    ∧ (record = 1 → Answers (.readSpeedConfig tag record) s tag 4 .ok
        ([natWord d.speed.state.code, natWord d.speed.history.length, toWord d.speed.v, toWord d.speed.a, toWord d.speed.lead]
          ++ (d.speed.history.take 8).map toWord))
    ∧ (1 < record.toNat → Answers (.readSpeedConfig tag record) s tag 4 .badParam [])
    ∧ (∀ (c : Fin 12) (i : Fin 16), record.toNat = c.val → part.toNat = i.val →
        let words := fun curve : Curve => natWord curve.length :: (List.range 4).flatMap fun j =>
          if h : i.val + j < 16 then
            [toWord (curve.entries[i.val + j]).speed, toWord (curve.entries[i.val + j]).setpoint,
             toWord (curve.entries[i.val + j]).feedforward]
          else [0, 0, 0]
        Answers (.readProfileShadow tag record part) s tag 4 .ok (words d.profile.shadow[c])
          ∧ Answers (.readProfileActive tag record part) s tag 4 .ok (words d.profile.active[c]))
    ∧ (12 ≤ record.toNat ∨ 16 ≤ part.toNat → Answers (.readProfileShadow tag record part) s tag 4 .badParam []
        ∧ Answers (.readProfileActive tag record part) s tag 4 .badParam [])

/-- R4, R5, R6: WRITE_SLOT_MAP and WRITE_LINK_RECORD. In READY both are refused with STATE. In UNCONFIGURED an entry is made empty or bound,
unless a word is out of range or another entry holds its slot or its role; the link record takes both values in range. Nothing else
changes. -/
def Obligations.SlotMapWritesKeepTheMapConsistent : Prop :=
  ∀ (tag record : Byte) (slot kind index : Word) (s : State), s.dev.Free → record ≠ 64 →
    let d := s.dev
    let map := fun (i : Fin 64) (e : Option SlotEntry) =>
      { d with slotMap := { d.slotMap with entries := d.slotMap.entries.set i e } }
    let writes := Instr.writeSlotMap tag record slot kind index
    let linkWrite := Instr.writeLinkRecord tag slot kind
    (d.mailbox.ready = true → Answers writes s tag 3 .state [] ∧ Answers linkWrite s tag 3 .state [])
    ∧ (d.mailbox.ready = false →
        (64 < record.toNat → Answers writes s tag 3 .badParam [])
        ∧ (∀ i : Fin 64, record.toNat = i.val →
            (kind = 0 → Leaves writes s tag 3 (map i none) [])
            ∧ (kind ≠ 0 → 128 ≤ slot.toNat ∨ 4 < kind.toNat ∨ (kind = 1 ∧ 32 ≤ index.toNat) ∨ (kind = 2 ∧ 16 ≤ index.toNat) →
                Answers writes s tag 3 .badParam [])
            ∧ (∀ e : SlotEntry, slot.toNat = e.slot.val →
                ((∃ c : Fin 32, kind = 1 ∧ index.toNat = c.val ∧ e.role = .input c)
                  ∨ (∃ a : Fin 16, kind = 2 ∧ index.toNat = a.val ∧ e.role = .output a)
                  ∨ (kind = 3 ∧ e.role = .status) ∨ (kind = 4 ∧ e.role = .control)) →
                let taken := ∃ (j : Fin 64) (x : SlotEntry), j ≠ i ∧ d.slotMap.entries[j] = some x ∧ (x.slot = e.slot ∨ x.role = e.role)
                (taken → Answers writes s tag 3 .badParam []) ∧ (¬taken → Leaves writes s tag 3 (map i (some e)) [])))
        ∧ (1 ≤ slot.toNat ∧ slot.toNat ≤ 255 ∧ 1 ≤ kind.toNat ∧ kind.toNat ≤ 15 → Leaves linkWrite s tag 3
            { d with slotMap := { d.slotMap with cycleTimeout := slot.toNat, badLimit := kind.toNat } } [])
        ∧ (¬(1 ≤ slot.toNat ∧ slot.toNat ≤ 255 ∧ 1 ≤ kind.toNat ∧ kind.toNat ≤ 15) → Answers linkWrite s tag 3 .badParam []))

/-- R26: WRITE_CHANNEL_SCALE. A refused write changes nothing; a write that keeps the kind replaces the fields and leaves every dynamic field; a
write that changes the kind is refused with STATE in READY, and in UNCONFIGURED also clears the dynamic fields but raw, brings the
limits into the new kind's, and hands the loss of freshness on; that the tracker and each zone see it as originating changes of their own
is read from R124 (log 18). -/
def Obligations.ScaleWriteReplacesTheScaleFields : Prop :=
  ∀ (tag record : Byte) (kind gain offset lo hi alpha : Word) (s : State), s.dev.Free →
    let d := s.dev
    let writes := Instr.writeChannelScale tag record kind gain offset lo hi alpha
    (32 ≤ record.toNat ∨ 4 ≤ kind.toNat → Answers writes s tag 3 .badParam [])
    ∧ ∀ (c : Fin 32) (k : ChannelKind), record.toNat = c.val → kind.toNat = k.code →
        let x := d.channels[c]
        let fits := ∀ kl kh : Int, k.limits = some (kl, kh) →
          gain ≠ 0x8000 ∧ offset ≠ 0x8000 ∧ 1 ≤ alpha.toNat ∧ alpha.toNat ≤ 256 ∧ kl ≤ lo.toInt ∧ lo.toInt ≤ hi.toInt ∧ hi.toInt ≤ kh
        let scaled : Channel := if k = .discrete then x else
          { x with gain := gain.toInt, offset := offset.toInt, lo := lo.toInt, hi := hi.toInt, alpha := (alpha.toNat : Int) }
        let bounded := fun v : Int => match k.limits with
          | some (kl, kh) => clamp kl kh v
          | none => v
        let y : Channel := { scaled with
          kind := k, hiLimit := bounded x.hiLimit, loLimit := bounded x.loLimit, validity := .none, value := 0, filtered := 0, age := 0
          hiSet := false, loSet := false, limited := false }
        (¬fits → Answers writes s tag 3 .badParam [])
        ∧ (fits → x.kind = k → Leaves writes s tag 3 (d.setChannel c scaled) [])
        ∧ (fits → x.kind ≠ k → d.mailbox.ready = true → Answers writes s tag 3 .state [])
        ∧ (fits → x.kind ≠ k → d.mailbox.ready = false → Settles writes s tag 3
            { dev := d.setChannel c y
              next := (if c = d.speed.speedChannel ∧ x.validity = .fresh then [.speedLoss] else [])
                ++ if x.validity = .none then []
                  else ((List.finRange 12).filter fun z => d.zones[z].measChannel == c).map fun z => .zoneValidity z .none }
            fun _ => [])

/-- R27, R40: WRITE_CHANNEL_LIMITS. A refused write changes nothing; an accepted one replaces the fields and leaves validity and comparators
alone, but a new failState on a FAILED channel acts at once on its levels, with the events of the enables as written (the model's choice,
log 35). -/
def Obligations.LimitsWriteReplacesTheLimitFields : Prop :=
  ∀ (tag record : Byte) (stale fail hiLimit loLimit hyst failState enables : Word) (s : State), s.dev.Free →
    let d := s.dev
    let writes := Instr.writeChannelLimits tag record stale fail hiLimit loLimit hyst failState enables
    (32 ≤ record.toNat ∨ 1 < failState.toNat → Answers writes s tag 3 .badParam [])
    ∧ ∀ (c : Fin 32) (f : Bool), record.toNat = c.val → failState = (if f = true then 1 else 0) →
        let x := d.channels[c]
        let fits := 1 ≤ stale.toNat ∧ stale.toNat ≤ fail.toNat ∧ hyst.toNat ≤ 500
          ∧ ∀ kl kh : Int, x.kind.limits = some (kl, kh) →
              kl ≤ hiLimit.toInt ∧ hiLimit.toInt ≤ kh ∧ kl ≤ loLimit.toInt ∧ loLimit.toInt ≤ kh
        let y : Channel := { x with
          staleLimit := stale.toNat, failLimit := fail.toNat, hiLimit := hiLimit.toInt, loLimit := loLimit.toInt
          hyst := (hyst.toNat : Int), failState := f, enableHi := enables.getLsbD 0, enableLo := enables.getLsbD 1
          enableStale := enables.getLsbD 2 }
        let level : Bool := if x.kind = .discrete then false else f
        let events : List (EventKind × Word) := (if x.hiSet ≠ level ∧ y.enableHi = true then [(.channelHi, boolWord level)] else [])
          ++ if x.loSet ≠ level ∧ y.enableLo = true then [(.channelLo, boolWord level)] else []
        (¬fits → Answers writes s tag 3 .badParam [])
        ∧ (fits → x.validity ≠ .failed ∨ x.failState = f → Leaves writes s tag 3 (d.setChannel c y) [])
        ∧ (fits → x.validity = .failed → x.failState ≠ f → Settles writes s tag 3
            { dev := (d.setChannel c { y with hiSet := level, loSet := level }).raiseAll c.val events } fun _ => [])

/-- R43, R50, R135: the writes of the Speed Tracker and of the Break Monitor. A record other than 0 or a word out of range is BAD_PARAM and changes
nothing. A speed write that changes the speed channel is refused with STATE in READY, and in UNCONFIGURED makes the speed state UNKNOWN
with an empty history, a 0, and v and L held; otherwise the dynamic state stands. A break write replaces the four fields, and the levels
are formed afresh from them. -/
def Obligations.SpeedAndBreakWritesReplaceTheirFields : Prop :=
  (∀ (tag record : Byte) (channel crawl run band lead : Word) (s : State), s.dev.Free →
     let d := s.dev
     let writes := Instr.writeSpeedConfig tag record channel crawl run band lead
     let fits := crawl.toNat ≤ run.toNat ∧ run.toNat ≤ 1500 ∧ 1 ≤ band.toNat ∧ band.toNat ≤ 1500 ∧ lead.toNat ≤ 255
     (record ≠ 0 ∨ 32 ≤ channel.toNat ∨ ¬fits → Answers writes s tag 3 .badParam [])
     ∧ ∀ c : Fin 32, record = 0 → channel.toNat = c.val → fits →
         let x := { d.speed with
           speedChannel := c, crawlSpeed := (crawl.toNat : Int), runSpeed := (run.toNat : Int), accelBand := (band.toNat : Int)
           leadFactor := (lead.toNat : Int) }
         (d.speed.speedChannel = c → Leaves writes s tag 3 { d with speed := x } [])
         ∧ (d.speed.speedChannel ≠ c → d.mailbox.ready = true → Answers writes s tag 3 .state [])
         ∧ (d.speed.speedChannel ≠ c → d.mailbox.ready = false → Settles writes s tag 3
             { dev := { d with speed := { x with state := .unknown, history := [], a := 0 } } } fun _ => []))
  ∧
  (∀ (tag record : Byte) (enable active membership confirm : Word) (s : State), s.dev.Free →
     let d := s.dev
     let writes := Instr.writeBreakConfig tag record enable active membership confirm
     (record ≠ 0 ∨ 1 < enable.toNat ∨ 1 < active.toNat ∨ 256 ≤ membership.toNat ∨ confirm = 0 → Answers writes s tag 3 .badParam [])
     ∧ ∀ (on high : Bool) (groups : Byte), record = 0 → enable = (if on = true then 1 else 0) → active = (if high = true then 1 else 0) →
         membership = groups.setWidth 16 → confirm ≠ 0 →
           Settles writes s tag 3
             { dev := { d with monitor := { d.monitor with
                 wbrkEnable := on, wbrkActive := high, membership := groups, confirmTime := confirm.toNat } } }
             fun t => [natWord t.monitor.state.code])

/-! ## Mailbox: profiles -/

/-- R56, R57, R183: WRITE_PROFILE. The header's fields and the breakpoints that are written are checked; an accepted write puts breakpoint j into
entry first + j of the SHADOW curve, sets the length unless it is KEEP, and changes nothing else. -/
def Obligations.ProfileWriteLoadsTheShadowCurve : Prop :=
  ∀ (tag : Byte) (header : Word) (points : Vector Word 9) (s : State), s.dev.Free →
    let d := s.dev
    let curve := (header.extractLsb' 0 4).toNat
    let first := (header.extractLsb' 4 4).toNat
    let count := (header.extractLsb' 8 3).toNat
    let length := (header.extractLsb' 11 5).toNat
    let word := fun i => points.toList.getD i 0
    let fits := curve ≤ 11 ∧ count ≤ 3 ∧ first + count ≤ 16 ∧ (length ≤ 16 ∨ length = 31)
      ∧ ∀ j, j < count → (word (3 * j)).toNat ≤ 1500 ∧ -500 ≤ (word (3 * j + 1)).toInt ∧ (word (3 * j + 1)).toInt ≤ 4500
          ∧ (word (3 * j + 2)).toNat ≤ 10000
    (¬fits → Answers (.writeProfile tag header points) s tag 5 .badParam [])
    ∧ (fits → ∀ c : Fin 12, curve = c.val → ∃ y : Curve,
        Leaves (.writeProfile tag header points) s tag 5 { d with profile := { d.profile with shadow := d.profile.shadow.set c y } }
          [natWord y.length, natWord count]
        ∧ y.length = (if length = 31 then d.profile.shadow[c].length else length)
        ∧ ∀ i : Fin 16, y.entries[i] =
            if first ≤ i.val ∧ i.val < first + count then
              { speed := ((word (3 * (i.val - first))).toNat : Int), setpoint := (word (3 * (i.val - first) + 1)).toInt
                feedforward := ((word (3 * (i.val - first) + 2)).toNat : Int) }
            else d.profile.shadow[c].entries[i])

/-- R59, R60: what a commit's validation finds: nothing exactly where every SHADOW curve is sound, and otherwise the first fault in ascending
curve order, with the entry and the kind that R59 names. -/
def Obligations.ProfileValidationFindsTheFirstFault : Prop :=
  ∀ d : Device,
    let curve := fun c : Fin 12 => d.profile.shadow[c]
    let tracked := fun c : Fin 12 => d.zones[c].mode = .track ∨ (d.zones[c].mode = .hold ∧ d.zones[c].returnMode = .track)
    let ascends := fun (c : Fin 12) (n : Nat) => ∀ i : Fin 15, i.val + 1 < n →
      ((curve c).entries[i.val]).speed < ((curve c).entries[i.val + 1]).speed
    let sound := fun c : Fin 12 => ((curve c).length = 0 → ¬tracked c) ∧ (curve c).length ≠ 1 ∧ ascends c (curve c).length
    (d.profileFault = none ↔ ∀ c, sound c)
    ∧ ∀ (c : Fin 12) (i : Nat) (f : CurveFault), d.profileFault = some (c, i, f) →
        (∀ b : Fin 12, b < c → sound b)
        ∧ (((curve c).length = 0 ∧ tracked c ∧ i = 0 ∧ f = .emptyInTrack)
            ∨ ((curve c).length = 1 ∧ i = 1 ∧ f = .short)
            ∨ (2 ≤ (curve c).length ∧ f = .order ∧ i < (curve c).length ∧ ascends c i
                ∧ ∃ k : Fin 15, i = k.val + 1 ∧ ((curve c).entries[k.val + 1]).speed ≤ ((curve c).entries[k.val]).speed))

/-- R59, R61, R62, R64: COMMIT_PROFILE. A fault refuses the commit and changes nothing. Otherwise the SHADOW bank is copied whole; with no zone in
TRACK the commit completes at once, and otherwise every TRACK zone is marked and the command goes on executing. -/
def Obligations.CommitCopiesTheBankAndMarksTheZones : Prop :=
  ∀ (tag : Byte) (s : State), s.dev.Free →
    let d := s.dev
    let copied := { d with profile := { d.profile with active := d.profile.shadow, commit := none } }
    (∀ (c : Fin 12) (i : Nat) (f : CurveFault), d.profileFault = some (c, i, f) →
      Answers (.commitProfile tag) s tag 6 .profileInvalid [natWord c.val, natWord i, match f with
        | .short => 1
        | .order => 2
        | .emptyInTrack => 3])
    ∧ (d.profileFault = none → (∀ z : Fin 12, d.zones[z].mode ≠ .track) →
        exec (.commitProfile tag) s = .next { s with dev := (copied.setResult .ok tag 6 [0, 0, 0]).raise .commitDone 0 0 })
    ∧ (d.profileFault = none → (∃ z : Fin 12, d.zones[z].mode = .track) →
        ∃ (t : State) (mask : BitVec 12), exec (.commitProfile tag) s = .next t
          ∧ t.dev = { d with
              profile := { d.profile with active := d.profile.shadow, commit := some { marked := mask, rebased := 0, released := 0 } }
              zones := t.dev.zones, mailbox := { d.mailbox with executing := some { code := 6, tag := tag } } }
          ∧ ∀ z : Fin 12, (mask.getLsbD z.val = true ↔ d.zones[z].mode = .track)
              ∧ t.dev.zones[z] = if d.zones[z].mode = .track then { d.zones[z] with bumpless := true } else d.zones[z])

/-- R63, R64: a zone's mark is cleared. While another zone still carries its mark the commit waits on with that zone entered as rebased or as
released; with the last mark the command ends with its three masks as an OK result, and COMMIT_DONE is raised. Where the last mark goes by
the zone's entry into HOLD or FAULT, COMMIT_DONE and the zone's event join the queue in either order (R188, log 3). -/
def Obligations.LastMarkCompletesTheCommit : Prop :=
  ∀ (d : Device) (z : Fin 12) (rebase : Bool) (r : Commit) (x : Executing),
    d.profile.commit = some r → d.mailbox.executing = some x → r.Matches d → d.zones[z].bumpless = true →
      let bit : BitVec 12 := BitVec.twoPow 12 z.val
      let after : Commit := { marked := r.marked, rebased := if rebase = true then r.rebased ||| bit else r.rebased
                              released := if rebase = true then r.released else r.released ||| bit }
      let d1 := d.setZone z { d.zones[z] with bumpless := false }
      ((∃ y : Fin 12, y ≠ z ∧ d.zones[y].bumpless = true) →
          d.endMark z rebase = { d1 with profile := { d1.profile with commit := some after } } ∧ after.Matches (d.endMark z rebase))
      ∧ ((∀ y : Fin 12, y ≠ z → d.zones[y].bumpless = false) →
          let d2 := { d1 with profile := { d1.profile with commit := none } }
          let ended := d2.setResult .ok x.tag x.code [after.marked.setWidth 16, after.rebased.setWidth 16, after.released.setWidth 16]
          let stamped := fun (kind : EventKind) (source : Nat) (value : Word) =>
            ({ kind := kind, source := BitVec.ofNat 8 source, stamp := d.port.cycleCount, value := value } : EventRecord)
          let done := stamped .commitDone 0 (after.rebased.setWidth 16)
          d.endMark z rebase = { ended with events := d.events.offer done }
          ∧ (rebase = false → ∀ cause : Word,
              (d.holdZone z cause).mailbox = ended.mailbox ∧ (d.faultZone z cause).mailbox = ended.mailbox
              ∧ ((d.holdZone z cause).events = (d.events.offer done).offer (stamped .zoneHold z.val cause)
                  ∨ (d.holdZone z cause).events = (d.events.offer (stamped .zoneHold z.val cause)).offer done)
              ∧ ((d.faultZone z cause).events = (d.events.offer done).offer (stamped .zoneFault z.val cause)
                  ∨ (d.faultZone z cause).events = (d.events.offer (stamped .zoneFault z.val cause)).offer done)))

/-- R67, R68: the lookup on a curve of n strictly ascending breakpoints: the first one's values at or below its speed, the last one's at or above
its speed, and otherwise the interpolation in the one segment that holds L, truncated toward zero. -/
def Obligations.LookupFollowsTheCurve : Prop :=
  ∀ (c : Curve) (l : Int) (n : Nat), c.length = n → 2 ≤ n → n ≤ 16 →
    (∀ i j : Fin 16, i < j → j.val < n → c.entries[i].speed < c.entries[j].speed) →
      (∀ a : Fin 16, a.val = 0 → l ≤ c.entries[a].speed → c.lookup l = (c.entries[a].setpoint, c.entries[a].feedforward))
      ∧ (∀ b : Fin 16, b.val + 1 = n → c.entries[b].speed ≤ l → c.lookup l = (c.entries[b].setpoint, c.entries[b].feedforward))
      ∧ (∀ k q : Fin 16, q.val = k.val + 1 → q.val < n → c.entries[k].speed ≤ l → l < c.entries[q].speed →
          let p := c.entries[k]
          let e := c.entries[q]
          let between := fun x0 x1 : Int => x0 + ((x1 - x0) * (l - p.speed)).tdiv (e.speed - p.speed)
          c.lookup l = (between p.setpoint e.setpoint, between p.feedforward e.feedforward)
            ∧ min p.setpoint e.setpoint ≤ (c.lookup l).1 ∧ (c.lookup l).1 ≤ max p.setpoint e.setpoint
            ∧ min p.feedforward e.feedforward ≤ (c.lookup l).2 ∧ (c.lookup l).2 ≤ max p.feedforward e.feedforward)

/-! ## Mailbox: zones -/

/-- R72, R73, R74: the three zone writes. A word out of range is BAD_PARAM and changes nothing. SETUP is refused with STATE in READY where it moves
the measurement channel or disables a zone that is not OFF; it clamps W into the new range. SAFETY moves U of a zone in PURGE or FAULT. That a yes/no word above 1 is out of range is read from R184 (log 8). -/
def Obligations.ZoneWritesReplaceTheirFields : Prop :=
  ∀ (tag record : Byte) (p2 p3 p4 p5 p6 p7 p8 : Word) (s : State), s.dev.Free →
    let d := s.dev
    let setup := Instr.writeZoneSetup tag record p2 p3 p4 p5 p6 p7 p8
    let loop := Instr.writeZoneLoop tag record p2 p3 p4 p5 p6
    let safety := Instr.writeZoneSafety tag record p2 p3 p4 p5
    (12 ≤ record.toNat → Answers setup s tag 3 .badParam [] ∧ Answers loop s tag 3 .badParam [] ∧ Answers safety s tag 3 .badParam [])
    ∧ ∀ z : Fin 12, record.toNat = z.val →
        let x := d.zones[z]
        let setupFits := p2.toNat ≤ 1 ∧ p3.toNat ≤ 31 ∧ -500 ≤ p4.toInt ∧ p4.toInt ≤ p5.toInt ∧ p5.toInt ≤ 4500
          ∧ -500 ≤ p6.toInt ∧ p6.toInt ≤ 4500 ∧ 1 ≤ p7.toNat ∧ p7.toNat ≤ 500 ∧ p8.toNat ≤ 1
        let loopFits := p2.toNat ≤ 4095 ∧ p3.toNat ≤ 4095 ∧ p4.toNat ≤ p5.toNat ∧ p5.toNat ≤ 10000 ∧ 1 ≤ p6.toNat ∧ p6.toNat ≤ 10000
        let safetyFits := p2.toNat ≤ 1000 ∧ p3.toNat ≤ 10000 ∧ p4.toNat ≤ 10000 ∧ 1 ≤ p5.toNat
        (¬setupFits → Answers setup s tag 3 .badParam [])
        ∧ (setupFits → ∀ c : Fin 32, p3.toNat = c.val →
            let barred := x.measChannel ≠ c ∨ (p2 = 0 ∧ x.mode ≠ .off)
            (d.mailbox.ready = true → barred → Answers setup s tag 3 .state [])
            ∧ (d.mailbox.ready = false ∨ ¬barred → Leaves setup s tag 3 (d.setZone z { x with
                enabled := p2 == 1, measChannel := c, spMin := p4.toInt, spMax := p5.toInt, preheatSetpoint := p6.toInt
                rampStep := (p7.toNat : Int), autoTrack := p8 == 1, w := clamp p4.toInt p5.toInt x.w }) []))
        ∧ (¬loopFits → Answers loop s tag 3 .badParam [])
        ∧ (loopFits → Leaves loop s tag 3 (d.setZone z { x with
            kp := (p2.toNat : Int), ki := (p3.toNat : Int), outMin := (p4.toNat : Int), outMax := (p5.toNat : Int)
            slewMax := (p6.toNat : Int) }) [])
        ∧ (¬safetyFits → Answers safety s tag 3 .badParam [])
        ∧ (safetyFits → Leaves safety s tag 3 (d.setZone z { x with
            overBand := (p2.toNat : Int), purgeOutput := (p3.toNat : Int), faultOutput := (p4.toNat : Int), purgeTime := p5.toNat
            u := match x.mode with
              | .purge => (p3.toNat : Int)
              | .fault => (p4.toNat : Int)
              | .off | .preheat | .track | .hold => x.u }) [])

/-- R82, R84, R85, R86, R90, R103, R123, R129: what a zone makes of its measurement channel and of its hold demand. In PREHEAT and TRACK it enters HOLD with its
channel's loss of freshness or a rise of its demand, keeping the mode it left and its U, W, I and limitDir; in HOLD it returns when its channel
is FRESH and its demand false, with ZONE_RESUME. A failed channel takes it to FAULT with its fault output from those three modes, and is
deferred in PURGE. OFF and FAULT see nothing, PURGE nothing else. No other zone changes. And a term reaches the zones of its mask: where a
change of the MARK line moves a term bound ZONE_HOLD and no other such term demands the zone, the zone enters HOLD, or leaves it, in that same
event; a zone whose demand has not changed stands. The change of the line is an acceptance, which is the model's choice (log 20). -/
def Obligations.ZoneSeesItsChannelAndItsDemand : Prop :=
  (∀ (d : Device) (z : Fin 12) (demand : Bool),
    let x := d.zones[z]
    let stamped := fun (kind : EventKind) (value : Word) =>
      ({ kind := kind, source := BitVec.ofNat 8 z.val, stamp := d.port.cycleCount, value := value } : EventRecord)
    let left := fun (y : Zone) (kind : EventKind) (value : Word) => { d.setZone z y with events := d.events.offer (stamped kind value) }
    let held := fun r : ReturnMode => { x with mode := .hold, returnMode := r }
    let faulted := { x with
      mode := .fault, u := x.faultOutput, i := 0, limitDir := .none, purgeCount := 0, faultDeferred := false, returnMode := .none }
    let purged := { x with
      mode := .purge, u := x.purgeOutput, i := 0, limitDir := .none, purgeCount := x.purgeTime, faultDeferred := false
      returnMode := .none }
    (x.bumpless = false → x.mode = .preheat →
      d.zoneSeesValidity z .stale demand = left (held .preheat) .zoneHold 1 ∧ d.zoneSeesDemand z true = left (held .preheat) .zoneHold 2)
    ∧ (x.bumpless = false → x.mode = .track →
      d.zoneSeesValidity z .stale demand = left (held .track) .zoneHold 1 ∧ d.zoneSeesDemand z true = left (held .track) .zoneHold 2)
    ∧ (x.bumpless = false → x.mode = .preheat ∨ x.mode = .track ∨ x.mode = .hold →
      d.zoneSeesValidity z .failed demand = left faulted .zoneFault 1)
    ∧ (x.mode = .purge → d.zoneSeesValidity z .failed demand = d.setZone z { x with faultDeferred := true })
    ∧ (x.mode = .hold →
      (d.zoneSeesValidity z .fresh true = d)
      ∧ (d.channels[x.measChannel].validity ≠ .fresh → d.zoneSeesDemand z false = d)
      ∧ ∀ t : Device, t = d.zoneSeesValidity z .fresh false
            ∨ (d.channels[x.measChannel].validity = .fresh ∧ t = d.zoneSeesDemand z false) →
          (x.returnMode = .preheat → t = left { x with mode := .preheat, returnMode := .none } .zoneResume 1)
          ∧ (x.returnMode = .track → t = left { x with mode := .track, returnMode := .none } .zoneResume 2)
          ∧ (x.returnMode = .purge → t = left purged .zoneResume 4))
    ∧ (x.mode = .off ∨ x.mode = .fault ∨ x.mode = .purge →
      d.zoneSeesDemand z demand = d ∧ ∀ v : Validity, v ≠ .failed ∨ x.mode ≠ .purge → d.zoneSeesValidity z v demand = d)
    ∧ ∀ (v : Validity) (level : Bool) (y : Fin 12), y ≠ z →
        (d.zoneSeesValidity z v demand).zones[y] = d.zones[y] ∧ (d.zoneSeesDemand z level).zones[y] = d.zones[y])
  ∧
  (∀ (level : Bool) (s : State) (j : Fin 8) (v : Bool), s.dev.MarkMovesTerm level j v →
    ∃ t : State, exec (.markLevelChange level) s = .next t ∧ ∀ z : Fin 12,
      let x := s.dev.zones[z]
      let told := fun (kind : EventKind) (value : Word) => s.dev.events.Told t.dev.events kind z.val s.dev.port.cycleCount value
      let demands := fun i : Fin 8 => s.dev.terms[i].binding = .zoneHold ∧ s.dev.terms[i].zoneMask.getLsbD z.val = true
      let moved := demands j ∧ ∀ i : Fin 8, i ≠ j → demands i → s.dev.terms[i].value = false
      let fresh := s.dev.channels[x.measChannel].validity = .fresh
      (moved → v = true → x.mode = .preheat →
        t.dev.zones[z] = { x with mode := .hold, returnMode := .preheat, bumpless := false } ∧ told .zoneHold 2)
      ∧ (moved → v = true → x.mode = .track →
        t.dev.zones[z] = { x with mode := .hold, returnMode := .track, bumpless := false } ∧ told .zoneHold 2)
      ∧ (moved → v = false → x.mode = .hold → fresh →
        (x.returnMode = .preheat → t.dev.zones[z] = { x with mode := .preheat, returnMode := .none } ∧ told .zoneResume 1)
        ∧ (x.returnMode = .track → t.dev.zones[z] = { x with mode := .track, returnMode := .none } ∧ told .zoneResume 2)
        ∧ (x.returnMode = .purge → told .zoneResume 4 ∧ t.dev.zones[z] = { x with
            mode := .purge, u := x.purgeOutput, i := 0, limitDir := .none, purgeCount := x.purgeTime, faultDeferred := false
            returnMode := .none }))
      ∧ (moved → x.mode = .off ∨ x.mode = .purge ∨ x.mode = .fault ∨ (x.mode = .hold ∧ (v = true ∨ ¬fresh)) ∨ (x.mode ≠ .hold ∧ v = false) →
        t.dev.zones[z] = x)
      ∧ (¬moved → s.dev.terms[j].binding ≠ .hardBreak → t.dev.zones[z] = x))

/-- R75, R118, R128: the reads of zones, timers and terms answer the fields as they stand, in the rules' order, and change nothing else; a record
index or a part out of range is BAD_PARAM. -/
def Obligations.ZoneTimerAndTermReadsAnswer : Prop :=
  ∀ (tag record : Byte) (part : Word) (s : State), s.dev.Free →
    let d := s.dev
    (∀ z : Fin 12, record.toNat = z.val →
      let x := d.zones[z]
      let demand := ∃ j : Fin 8, d.terms[j].binding = .zoneHold ∧ d.terms[j].zoneMask.getLsbD z.val = true ∧ d.terms[j].value = true
      (part = 0 → Answers (.readZone tag record part) s tag 4 .ok
        [boolWord x.enabled, natWord x.measChannel.val, toWord x.spMin, toWord x.spMax, toWord x.preheatSetpoint, toWord x.rampStep,
          boolWord x.autoTrack])
      ∧ (part = 1 → Answers (.readZone tag record part) s tag 4 .ok
        [toWord x.kp, toWord x.ki, toWord x.outMin, toWord x.outMax, toWord x.slewMax])
      ∧ (part = 2 → Answers (.readZone tag record part) s tag 4 .ok
        [toWord x.overBand, toWord x.purgeOutput, toWord x.faultOutput, natWord x.purgeTime])
      ∧ (2 < part.toNat → Answers (.readZone tag record part) s tag 4 .badParam [])
      ∧ ∃ held : Word, (demand → held = 1) ∧ (¬demand → held = 0) ∧ Answers (.readZoneState tag record) s tag 4 .ok
        [natWord x.mode.code, natWord x.returnMode.code, toWord x.w, toWord x.i, toWord x.u, natWord x.limitDir.code, boolWord x.bumpless,
          natWord x.purgeCount, boolWord x.faultDeferred, held, if z.val ≤ 7 then 0 else 1])
    ∧ (12 ≤ record.toNat → Answers (.readZone tag record part) s tag 4 .badParam []
        ∧ Answers (.readZoneState tag record) s tag 4 .badParam [])
    ∧ (∀ k : Fin 6, record.toNat = k.val →
      let x := d.timers[k]
      Answers (.readTimer tag record) s tag 4 .ok
        [natWord x.mode.code, x.input.toWord, natWord x.edge.code, natWord x.clock.code, natWord x.n, x.hold.toWord]
      ∧ Answers (.readTimerState tag record) s tag 4 .ok
        [boolWord (if x.mode = .count then !x.inputLevel else x.counting), natWord x.count, boolWord x.output, boolWord x.inputLevel,
          boolWord (d.level x.hold), boolWord x.latchPending, natWord x.latchN, natWord x.n])
    ∧ (6 ≤ record.toNat → Answers (.readTimer tag record) s tag 4 .badParam [] ∧ Answers (.readTimerState tag record) s tag 4 .badParam [])
    ∧ (∀ j : Fin 8, record.toNat = j.val →
      let x := d.terms[j]
      let bit := fun (c : Cond) (n : Nat) => if d.level c = true then n else 0
      Answers (.readTerm tag record) s tag 4 .ok
        [x.a.toWord, x.b.toWord, x.c.toWord, x.d.toWord, x.table, natWord x.binding.code, x.zoneMask.setWidth 16, boolWord x.eventFlag,
          boolWord x.value, natWord (bit x.a 1 + bit x.b 2 + bit x.c 4 + bit x.d 8), boolWord x.deferred])
    ∧ (8 ≤ record.toNat → Answers (.readTerm tag record) s tag 4 .badParam [])

/-- R78: when SET_ZONE_MODE refuses, and with what. In UNCONFIGURED it is STATE; a mask or a mode code out of range is BAD_PARAM; and the lowest
zone of the mask whose transition is not allowed refuses the whole command with the first reason of its row. R80: a TRACK command that meets
a declaration which came with it and has taken the zone from PREHEAT to PURGE is refused with reason 3 and not with reason 1; `breakMet`, the
model's own field, holds those zones (log 27). -/
def Obligations.ZoneModeRefusalsNameTheFirstZone : Prop :=
  ∀ (tag : Byte) (mask mode : Word) (s : State), s.dev.Free →
    let d := s.dev
    let why := fun (z : Fin 12) (target : Mode) =>
      let x := d.zones[z]
      match target with
      | .off => 0
      | .preheat => if x.enabled = false then 2 else if x.mode = .off ∨ x.mode = .track then 0 else 1
      | .track =>
        let breakFirst := x.mode = .purge ∧ d.monitor.state = .broken ∧ d.breakMet.getLsbD z.val = true
        if x.enabled = false then 2
        else if x.mode ≠ .preheat ∧ ¬breakFirst then 1
        else if d.monitor.state ≠ .armed then 3
        else if d.profile.active[z].length = 0 then 4
        else if d.speed.state = .unknown then 5
        else 0
      | .hold | .purge | .fault => 6
    (d.mailbox.ready = false → Answers (.setZoneMode tag mask mode) s tag 8 .state [0xFFFF])
    ∧ (d.mailbox.ready = true → mask = 0 ∨ 4096 ≤ mask.toNat ∨ 6 ≤ mode.toNat → Answers (.setZoneMode tag mask mode) s tag 8 .badParam [])
    ∧ (d.mailbox.ready = true → mask.toNat < 4096 → ∀ (target : Mode) (z : Fin 12), mode.toNat = target.code →
        mask.getLsbD z.val = true → why z target ≠ 0 → (∀ y : Fin 12, y < z → mask.getLsbD y.val = true → why y target = 0) →
          Answers (.setZoneMode tag mask mode) s tag 8 .transition [natWord z.val, natWord (why z target), natWord d.zones[z].mode.code])
    ∧ (∀ z : Fin 12, (act [] d .zonesBreak).dev.breakMet.getLsbD z.val = true ↔ d.breakMet.getLsbD z.val = true ∨ d.zones[z].mode = .preheat)
    ∧ ∀ target : Mode, d.modeRefusal mask target = none ↔ ∀ z : Fin 12, mask.getLsbD z.val = true → why z target = 0

/-- R76, R77, R79: an accepted SET_ZONE_MODE changes every zone of its mask and no other, each under the rule of its transition, before
anything reacts; the modes are answered as the command leaves them. That the terms settle once, after the last zone, is read from R79 (log 17). -/
def Obligations.ZoneModeChangesTheMaskedZones : Prop :=
  ∀ (tag : Byte) (mask mode : Word) (s : State) (target : Mode), s.dev.Free → s.dev.mailbox.ready = true →
    mode.toNat = target.code → mask ≠ 0 → mask.toNat < 4096 → s.dev.modeRefusal mask target = none →
      let d := s.dev
      let checked := fun (z : Fin 12) (x : Zone) =>
        let m := d.channels[x.measChannel]
        if m.validity = .failed then { x with
          mode := .fault, u := x.faultOutput, i := 0, limitDir := .none, purgeCount := 0, faultDeferred := false, returnMode := .none
          bumpless := false }
        else if m.validity ≠ .fresh ∨ d.holdDemand z = true then { x with
          mode := .hold, bumpless := false
          returnMode := match x.mode with
            | .preheat => .preheat
            | .track => .track
            | _ => .none }
        else x
      ∃ d1 : Device,
        Settles (.setZoneMode tag mask mode) s tag 8 { dev := d1 } (fun t => (List.finRange 12).map fun z => natWord t.zones[z].mode.code)
        ∧ d1.channels = d.channels ∧ d1.terms = d.terms ∧ d1.actuators = d.actuators ∧ d1.monitor = d.monitor ∧ d1.permit = d.permit
        ∧ ∀ z : Fin 12,
            let x := d.zones[z]
            (mask.getLsbD z.val = false → d1.zones[z] = x)
            ∧ (mask.getLsbD z.val = true →
                (target = .off → d1.zones[z] = if x.mode = .off then x else { x with
                  mode := .off, u := 0, i := 0, limitDir := .none, purgeCount := 0, faultDeferred := false, returnMode := .none
                  bumpless := false })
                ∧ (target = .preheat → x.mode = .off → d1.zones[z] = checked z { x with
                    w := clamp x.spMin x.spMax d.channels[x.measChannel].filtered, i := 0, limitDir := .none, mode := .preheat
                    returnMode := .none, purgeCount := 0, faultDeferred := false })
                ∧ (target = .preheat → x.mode = .track → d1.zones[z] = checked z { x with mode := .preheat, bumpless := false })
                ∧ (target = .track → d1.zones[z] = checked z { x with mode := .track }))

/-! ## Mailbox: timers, terms and the permit -/

/-- R116, R117: WRITE_TIMER. A code, an address or an N that names nothing is BAD_PARAM. A write that repeats the five fields writes N: directly
into an idle unit, into the latch of a counting one. A write that changes one of them is refused with STATE in READY, and in UNCONFIGURED
replaces them and resets the unit, with its input level taken from the new input. A discarded latch keeps its word (log 11). The input level
is taken before the terms settle on the reset: for a new input that is a term reading this unit's own output, that clause is the model's
choice (log 33). -/
def Obligations.TimerWriteLatchesOrResets : Prop :=
  ∀ (tag record : Byte) (mode input edge clock n hold : Word) (s : State), s.dev.Free →
    let d := s.dev
    let writes := Instr.writeTimer tag record mode input edge clock n hold
    (6 ≤ record.toNat ∨ 4 < mode.toNat ∨ 2 < edge.toNat ∨ 3 < clock.toNat ∨ n = 0 ∨ Cond.ofWord input = none ∨ Cond.ofWord hold = none →
      Answers writes s tag 3 .badParam [])
    ∧ ∀ (k : Fin 6) (m : TimerMode) (i : Cond) (e : EdgeSelect) (c : ClockSource) (h : Cond),
        record.toNat = k.val → mode.toNat = m.code → Cond.ofWord input = some i → edge.toNat = e.code → clock.toNat = c.code →
        Cond.ofWord hold = some h → n ≠ 0 →
          let x := d.timers[k]
          let same := x.mode = m ∧ x.input = i ∧ x.edge = e ∧ x.clock = c ∧ x.hold = h
          let counts := if x.mode = .count then x.inputLevel = false else x.counting = true
          let y := { x with
            mode := m, input := i, edge := e, clock := c, n := n.toNat, hold := h, counting := false, count := 0, output := false
            latchPending := false }
          (same → counts → Leaves writes s tag 3 (d.setTimer k { x with latchN := n.toNat, latchPending := true }) [natWord x.n, 1])
          ∧ (same → ¬counts → Leaves writes s tag 3 (d.setTimer k { x with n := n.toNat, latchPending := false }) [n, 0])
          ∧ (¬same → d.mailbox.ready = true → Answers writes s tag 3 .state [])
          ∧ (¬same → d.mailbox.ready = false → Settles writes s tag 3
              { dev := d.setTimer k { y with inputLevel := (d.setTimer k y).level i } }
              fun t => [natWord t.timers[k].n, boolWord t.timers[k].latchPending])

/-- R126, R127: WRITE_TERM. In READY it is refused with STATE; in UNCONFIGURED an invalid address, a term at or above the own index, or a word out
of range is BAD_PARAM. An accepted write replaces the fields, ends a deferral and takes at once the entry that the inputs select. -/
def Obligations.TermWriteSettlesAtOnce : Prop :=
  ∀ (tag record : Byte) (a b c e table binding mask flag : Word) (s : State), s.dev.Free →
    let d := s.dev
    let writes := Instr.writeTerm tag record a b c e table binding mask flag
    (d.mailbox.ready = true → Answers writes s tag 3 .state [])
    ∧ (d.mailbox.ready = false →
        8 ≤ record.toNat ∨ Cond.ofWord a = none ∨ Cond.ofWord b = none ∨ Cond.ofWord c = none ∨ Cond.ofWord e = none
          ∨ (∃ i : Fin 8, record.toNat ≤ i.val ∧ some (Cond.term i) ∈ [Cond.ofWord a, Cond.ofWord b, Cond.ofWord c, Cond.ofWord e])
          ∨ 6 < binding.toNat ∨ 4096 ≤ mask.toNat ∨ 1 < flag.toNat → Answers writes s tag 3 .badParam [])
    ∧ ∀ (j : Fin 8) (a' b' c' e' : Cond) (bind : Binding) (f : Bool), d.mailbox.ready = false → record.toNat = j.val →
        Cond.ofWord a = some a' → Cond.ofWord b = some b' → Cond.ofWord c = some c' → Cond.ofWord e = some e' →
        (∀ i : Fin 8, Cond.term i ∈ [a', b', c', e'] → i < j) → binding.toNat = bind.code → mask.toNat < 4096 →
        flag = (if f = true then 1 else 0) →
          let old := d.terms[j].value
          let x : Term := { a := a', b := b', c := c', d := e', table := table, binding := bind, zoneMask := mask.setWidth 12
                            eventFlag := f, value := old, deferred := false }
          let bit := fun (q : Cond) (n : Nat) => if d.level q = true then n else 0
          let v := table.getLsbD (bit a' 1 + bit b' 2 + bit c' 4 + bit e' 8)
          let d1 := d.setTerm j { x with value := v }
          Settles writes s tag 3 { dev := if v ≠ old ∧ f = true then d1.raise .termChanged j.val (boolWord v) else d1 }
            fun t => [boolWord t.terms[j].value]

/-- R132: RESTORE_PERMIT. In UNCONFIGURED it is STATE. In READY an ASSERTED permit stands with D0 = 0; a DROPPED one is asserted with
PERMIT_RESTORED and D0 = 1 where link, request and qualifier are all true, and is otherwise refused with the first that is false. -/
def Obligations.RestorePermitNeedsEveryCondition : Prop :=
  ∀ (tag : Byte) (s : State), s.dev.Free →
    let d := s.dev
    let qualified := ∀ j : Fin 8, d.terms[j].binding = .fireQualifier → d.terms[j].value = true
    (d.mailbox.ready = false → Answers (.restorePermit tag) s tag 13 .state [0xFFFF])
    ∧ (d.mailbox.ready = true →
        (d.permit = .asserted → Answers (.restorePermit tag) s tag 13 .ok [0])
        ∧ (d.permit = .dropped → d.port.link = .locked → d.port.permitRequest = true → qualified →
            ({ d with permit := .asserted } : Device).fpermit = true ∧ Leaves (.restorePermit tag) s tag 13 (({ d with permit := .asserted } : Device).raise .permitRestored 0 0) [1])
        ∧ (d.permit = .dropped → d.port.link ≠ .locked → Answers (.restorePermit tag) s tag 13 .notReady [2, 0])
        ∧ (d.permit = .dropped → d.port.link = .locked → d.port.permitRequest = false →
            Answers (.restorePermit tag) s tag 13 .notReady [3, 0])
        ∧ (d.permit = .dropped → d.port.link = .locked → d.port.permitRequest = true →
            ∀ j : Fin 8, d.terms[j].binding = .fireQualifier → d.terms[j].value = false →
              (∀ i : Fin 8, i < j → d.terms[i].binding = .fireQualifier → d.terms[i].value = true) →
                Answers (.restorePermit tag) s tag 13 .notReady [4, natWord j.val]))

/-! ## Mailbox: breaks and actuators -/

/-- R145, R146, R147: what the three break commands find. In UNCONFIGURED all are STATE. ARM_BREAK leaves the Monitor ARMED only from DISARMED
with no reason against it; BREAK_NOW declares only from ARMED or SUSPECT; RESET_BREAK needs BROKEN, no active source but the token, and
no zone purging. Every refusal changes nothing. -/
def Obligations.BreakCommandsAreExaminedInOrder : Prop :=
  ∀ (tag : Byte) (s : State), s.dev.Free →
    let d := s.dev
    let m := d.monitor
    let on := fun (b : Binding) (j : Fin 8) (v : Bool) => d.terms[j].binding = b ∧ d.terms[j].value = v
    let lowest := fun (b : Binding) (j : Fin 8) (v : Bool) => on b j v ∧ ∀ i : Fin 8, i < j → ¬on b i v
    let wbrk := m.wbrkEnable = true ∧ d.lines.wbrk = some m.wbrkActive
    let groups := (m.lastNotice ||| m.lastAssert) &&& m.membership
    let web := ∀ j : Fin 8, ¬on .webPresent j false
    let noHard := ∀ j : Fin 8, ¬on .hardBreak j true
    let noSoft := ∀ j : Fin 8, ¬on .softBreak j true
    let purging := fun z : Fin 12 => d.zones[z].mode = .purge ∨ (d.zones[z].mode = .hold ∧ d.zones[z].returnMode = .purge)
    (d.mailbox.ready = false → Answers (.armBreak tag) s tag 10 .state [0xFFFF] ∧ Answers (.breakNow tag) s tag 12 .state [0xFFFF]
      ∧ Answers (.resetBreak tag) s tag 11 .state [0xFFFF])
    ∧ (d.mailbox.ready = true →
        (m.state ≠ .disarmed → Answers (.armBreak tag) s tag 10 .state [natWord m.state.code])
        ∧ (m.state = .disarmed →
            (d.speed.state = .unknown → Answers (.armBreak tag) s tag 10 .notReady [2, 0])
            ∧ (d.speed.state ≠ .unknown →
                (∀ j, lowest .webPresent j false → Answers (.armBreak tag) s tag 10 .notReady [3, natWord j.val])
                ∧ (web → wbrk → Answers (.armBreak tag) s tag 10 .notReady [4, 0])
                ∧ (web → ¬wbrk → groups ≠ 0 → Answers (.armBreak tag) s tag 10 .notReady [5, groups.setWidth 16])
                ∧ (web → ¬wbrk → groups = 0 → ∀ j, lowest .hardBreak j true → Answers (.armBreak tag) s tag 10 .notReady [6, natWord j.val])
                ∧ (web → ¬wbrk → groups = 0 → noHard → ∀ j, lowest .softBreak j true →
                    Answers (.armBreak tag) s tag 10 .notReady [7, natWord j.val])
                ∧ (web → ¬wbrk → groups = 0 → noHard → noSoft → Settles (.armBreak tag) s tag 10
                    { dev := { d with monitor := { m with state := .armed, countdown := 0, suspectTicks := 0 } } } fun _ => [1])))
        ∧ (m.state = .disarmed ∨ m.state = .broken → Answers (.breakNow tag) s tag 12 .state [natWord m.state.code])
        ∧ (m.state ≠ .broken → Answers (.resetBreak tag) s tag 11 .state [natWord m.state.code])
        ∧ (m.state = .broken →
            (wbrk → Answers (.resetBreak tag) s tag 11 .sourceActive [1, 0])
            ∧ (¬wbrk → ∀ j, lowest .hardBreak j true → Answers (.resetBreak tag) s tag 11 .sourceActive [3, natWord j.val])
            ∧ (¬wbrk → noHard → ∀ j, lowest .softBreak j true → Answers (.resetBreak tag) s tag 11 .sourceActive [4, natWord j.val])
            ∧ (¬wbrk → noHard → noSoft → ∀ z : Fin 12, purging z → (∀ y : Fin 12, y < z → ¬purging y) →
                Answers (.resetBreak tag) s tag 11 .purging [natWord z.val, natWord d.zones[z].mode.code])))

/-- R88, R89, R142, R143, R144, R146, R148, R157, R160, R172: an accepted BREAK_NOW leaves the Monitor BROKEN with its record as the newest, every
actuator in NONE in its break phase, every zone that is not OFF or in FAULT purging or held for its purge, and a running capture triggered; an accepted RESET_BREAK leaves it DISARMED with BREAK_RESET raised and every break phase ended. -/
def Obligations.BreakNowDeclaresAndResetEnds : Prop :=
  ∀ (tag : Byte) (s : State), s.dev.Free → s.dev.mailbox.ready = true →
    let d := s.dev
    let m := d.monitor
    (m.state = .armed ∨ m.state = .suspect →
      ∃ (t : State) (r : BreakRecord), exec (.breakNow tag) s = .next t
        ∧ t.dev.mailbox.pending = some
            { code := .ok, tag := tag, command := 12, data := #v[m.declarations + 1, 0, 0, 0, 0, 0, 0, 0, 0, 0, 0, 0, 0] }
        ∧ t.dev.monitor = { m with
            state := .broken, countdown := 0, suspectTicks := 0, declarations := m.declarations + 1
            history := (if m.history.length < 8 then m.history else m.history.drop 1) ++ [r] }
        ∧ r = { cause := .command, causeIndex := 0, stamp := d.port.cycleCount, lead := d.speed.lead, trackMask := r.trackMask
                suspectDuration := if m.state = .suspect then m.suspectTicks else 0, sequence := m.declarations + 1 }
        ∧ (∀ z : Fin 12, r.trackMask.getLsbD z.val = true ↔ d.zones[z].mode = .track)
        ∧ d.ReachedByBreak t.dev
        ∧ ∀ a : Fin 16, t.dev.actuators[a] =
            (if d.actuators[a].phase ≠ .none then d.actuators[a]
             else if d.actuators[a].delay = 0 then { d.actuators[a] with phase := .acting, countdown := 0 }
             else { d.actuators[a] with phase := .delaying, countdown := d.actuators[a].delay }))
    ∧ (m.state = .broken → d.resetObstacle = none → d.purgingZone = none →
        let ended := fun x : Actuator => match x.phase with
          | .none => x
          | .delaying => { x with phase := .none, countdown := 0 }
          | .acting => { x with phase := .none, converging := true }
        let d1 := { d with monitor := { m with state := .disarmed }, actuators := d.actuators.map ended }
        Settles (.resetBreak tag) s tag 11 { dev := d1.raise .breakReset 0 m.declarations } fun _ => [0])

/-- R123, R129, R131, R136, R137, R138, R139, R140, R142, R143: what the Monitor and the Fire Permit make of their levels. In ARMED a rise of the soft level enters SUSPECT with the
confirmation loaded and BREAK_SUSPECT of the lowest true SOFT_BREAK term; in SUSPECT its fall returns to ARMED with SUSPECT_CLEARED; a rise of
the hard level in either declares at once, with the lowest true HARD_BREAK term as the index of a HARD_TERM; in DISARMED and BROKEN none of
them acts. While a rise of the hard level and one of the soft level that follow from one event both wait, an ARMED Monitor is not given the
soft one; which rises are of one event is the model's reading (log 40). A change of the accepted WBRK level that makes the hard level rise declares with cause LINE. No tick, expiry or line transition
takes an ASSERTED permit without a PERMIT_DROPPED; the end of the cycle timeout drops it with value 2, after LINK_LOST. A term that a change of
the MARK line moves reaches its owner in that same event: SOFT_BREAK enters or clears SUSPECT, HARD_BREAK declares with cause HARD_TERM to zones,
actuators and capture, FIRE_QUALIFIER drops the permit with value 4, and a term of another binding, or one whose level stands, leaves the Monitor
alone. A good completion without a command delivers a token: its rise declares with cause TOKEN and the lowest group, and no zone is then in
PREHEAT or TRACK; its control word with the request clear drops the permit with value 3; a bad completion that loses the link drops it with
value 2, after LINK_LOST. Where terms and timers read constants, a permit whose conditions all hold stands. The change of a line is an acceptance
(log 20), a loss of signal an operand of the row (log 24), and the order of a completion's deliveries is read from the rules (log 15): these are the
model's choices. -/
def Obligations.MonitorAndPermitActOnTheirLevels : Prop :=
  (∀ (d : Device) (risen : Nat),
    let m := d.monitor
    let stamped := fun (kind : EventKind) (source : Nat) (value : Word) =>
      ({ kind := kind, source := BitVec.ofNat 8 source, stamp := d.port.cycleCount, value := value } : EventRecord)
    let lowest := fun (b : Binding) (j : Fin 8) => (d.terms[j].binding = b ∧ d.terms[j].value = true)
      ∧ ∀ i : Fin 8, i < j → ¬(d.terms[i].binding = b ∧ d.terms[i].value = true)
    (m.state = .armed → ∀ j, lowest .softBreak j →
      (act [] d (.softRise risen)).dev = { d with
        monitor := { m with state := .suspect, countdown := m.confirmTime, suspectTicks := 0 }
        events := d.events.offer (stamped .breakSuspect j.val (BitVec.ofNat 16 m.confirmTime)) })
    ∧ (m.state = .suspect → (act [] d .softFall).dev = { d with
        monitor := { m with state := .armed, countdown := 0, suspectTicks := 0 }
        events := d.events.offer (stamped .suspectCleared 0 (BitVec.ofNat 16 m.suspectTicks)) })
    ∧ (m.state = .armed ∨ m.state = .suspect → ∀ j, lowest .hardBreak j →
        act [] d (.hardRise .hardTerm risen) = d.declareEffect .hardTerm j.val)
    ∧ (m.state = .armed ∨ m.state = .suspect → ∀ (cause : BreakCause) (index : Nat), ∃ r : BreakRecord,
        (d.declareEffect cause index).dev = { d with
          monitor := { m with
            state := .broken, countdown := 0, suspectTicks := 0, declarations := m.declarations + 1
            history := (if m.history.length < 8 then m.history else m.history.drop 1) ++ [r] }
          actuators := (d.declareEffect cause index).dev.actuators
          events := d.events.offer (stamped .breakDeclared index (BitVec.ofNat 16 cause.code)) }
        ∧ (d.declareEffect cause index).next = [.zonesBreak, .captureTrigger [2]]
        ∧ r.cause = cause ∧ r.causeIndex = index ∧ r.suspectDuration = (if m.state = .suspect then m.suspectTicks else 0))
    ∧ (m.state ≠ .armed → (act [] d (.softRise risen)).dev = d)
    ∧ (m.state ≠ .suspect → (act [] d .softFall).dev = d)
    ∧ (m.state = .disarmed ∨ m.state = .broken → ∀ cause, (act [] d (.hardRise cause risen)).dev = d
        ∧ (act [] d (.hardRise cause risen)).next = []))
  ∧ (∀ (level : Bool) (s : State), s.dev.lines.rstn = true → s.dev.lines.wbrk = some (!level) → s.dev.monitor.wbrkEnable = true →
      s.dev.monitor.wbrkActive = level → s.dev.hardLevel = false → s.dev.monitor.state = .armed → s.dev.Unread →
      ∃ (t : State) (r : BreakRecord), exec (.wbrkLevelChange level) s = .next t ∧ t.dev.monitor.state = .broken
        ∧ t.dev.monitor.history = pushBreakRecord s.dev.monitor.history r ∧ r.cause = .line ∧ r.causeIndex = 0)
  ∧ (∀ (i : Instr) (s t : State), i.timeOrLine = true → exec i s = .next t → s.dev.permit = .asserted → t.dev.permit = .dropped →
      (32 ≤ t.dev.events.records.length ∧ t.dev.events.overrun = true) ∨ ∃ e ∈ t.dev.events.records.drop s.dev.events.records.length,
        e.kind = .permitDropped ∧ e.stamp = s.dev.port.cycleCount ∧ (e.value = 2 ∨ e.value = 3 ∨ e.value = 4))
  ∧ (∀ s : State, s.dev.lines.rstn = true → s.dev.permit = .asserted → s.dev.port.link = .locked → s.dev.port.timeoutCountdown = 1 →
      ∃ t : State, exec .cycleTimeoutExpiry s = .next t ∧ t.dev.permit = .dropped ∧ t.dev.fpermit = false
        ∧ ((32 ≤ t.dev.events.records.length ∧ t.dev.events.overrun = true)
            ∨ ∃ (older between newer : List EventRecord) (lost dropped : EventRecord),
              t.dev.events.records.drop s.dev.events.records.length = older ++ lost :: between ++ dropped :: newer
                ∧ lost.kind = .linkLost ∧ lost.value = 1 ∧ lost.stamp = s.dev.port.cycleCount
                ∧ dropped = { kind := .permitDropped, source := 0, stamp := s.dev.port.cycleCount, value := 2 }))
  ∧ (∀ (level : Bool) (s : State) (j : Fin 8) (v : Bool), s.dev.MarkMovesTerm level j v →
      let m := s.dev.monitor
      let x := s.dev.terms[j]
      let alone := ∀ i : Fin 8, i ≠ j → s.dev.terms[i].binding = x.binding → s.dev.terms[i].value = false
      ∃ t : State, exec (.markLevelChange level) s = .next t ∧ t.dev.terms[j].value = v
        ∧ (let told := fun (kind : EventKind) (source : Nat) (value : Word) =>
            s.dev.events.Told t.dev.events kind source s.dev.port.cycleCount value
          (x.eventFlag = true → told .termChanged j.val (if v = true then 1 else 0))
          ∧ (x.binding = .softBreak → alone → v = true → m.state = .armed →
              t.dev.monitor = { m with state := .suspect, countdown := m.confirmTime, suspectTicks := 0 }
              ∧ told .breakSuspect j.val (BitVec.ofNat 16 m.confirmTime))
          ∧ (x.binding = .softBreak → alone → v = false → m.state = .suspect →
              t.dev.monitor = { m with state := .armed, countdown := 0, suspectTicks := 0 }
              ∧ told .suspectCleared 0 (BitVec.ofNat 16 m.suspectTicks))
          ∧ (x.binding = .hardBreak → v = true → s.dev.hardLevel = false → m.state = .armed ∨ m.state = .suspect →
              (t.dev.monitor = { m with
                state := .broken, countdown := 0, suspectTicks := 0, declarations := m.declarations + 1
                history := pushBreakRecord m.history
                  { cause := .hardTerm, causeIndex := j.val, stamp := s.dev.port.cycleCount, lead := s.dev.speed.lead
                    trackMask := s.dev.trackMask, suspectDuration := if m.state = .suspect then m.suspectTicks else 0
                    sequence := m.declarations + 1 } })
              ∧ told .breakDeclared j.val 3 ∧ s.dev.ReachedByBreak t.dev)
          ∧ ((x.binding ≠ .softBreak ∧ x.binding ≠ .hardBreak) ∨ m.state = .disarmed ∨ m.state = .broken
              ∨ (x.binding = .softBreak ∧ (¬alone ∨ (m.state = .suspect ∧ v = true) ∨ (m.state = .armed ∧ v = false)))
              ∨ (x.binding = .hardBreak ∧ (v = false ∨ s.dev.hardLevel = true)) →
              t.dev.monitor = m)
          ∧ (s.dev.permit = .asserted → s.dev.permitConditions = true →
              (x.binding = .fireQualifier → v = false → t.dev.permit = .dropped ∧ told .permitDropped j.val 4)
              ∧ (x.binding ≠ .fireQualifier ∨ v = true → t.dev.permit = .asserted))))
  ∧ (∀ (skipped : List Word) (s : State),
      let d := s.dev.passWords skipped
      let m := d.monitor
      d.lines.rstn = true → d.FrameIsGood → d.BringsNoCommand →
      ∃ t : State, exec (.cycleCompletion skipped false) s = .next t
        ∧ (let told := fun (kind : EventKind) (source : Nat) (value : Word) =>
            d.events.Told t.dev.events kind source (d.port.cycleCount + 1) value
          (∀ w, d.port.frame.staging.breakWord = some w → d.Unread →
            let groups := (highByte w ||| lowByte w) &&& m.membership
            (d.hardLevel = false → m.state = .armed ∨ m.state = .suspect → ∀ g : Fin 8, groups.getLsbD g.val = true →
              (∀ i : Fin 8, i < g → groups.getLsbD i.val = false) →
              (∃ r : BreakRecord, t.dev.monitor = { m with
                  state := .broken, countdown := 0, suspectTicks := 0, declarations := m.declarations + 1
                  history := pushBreakRecord m.history r, lastNotice := highByte w, lastAssert := lowByte w }
                ∧ r.cause = .token ∧ r.causeIndex = g.val ∧ r.stamp = d.port.cycleCount + 1
                ∧ r.suspectDuration = (if m.state = .suspect then m.suspectTicks else 0) ∧ r.sequence = m.declarations + 1)
              ∧ told .breakDeclared g.val 2
              ∧ (∀ a : Fin 16, t.dev.actuators[a] =
                  (if d.actuators[a].phase ≠ .none then d.actuators[a]
                   else if d.actuators[a].delay = 0 then { d.actuators[a] with phase := .acting, countdown := 0 }
                   else { d.actuators[a] with phase := .delaying, countdown := d.actuators[a].delay }))
              ∧ (∀ z : Fin 12, t.dev.zones[z].mode ≠ .preheat ∧ t.dev.zones[z].mode ≠ .track)
              ∧ t.dev.capture.state ≠ .running ∧ t.dev.capture.state ≠ .waiting)
            ∧ (groups = 0 ∨ d.hardLevel = true ∨ m.state = .disarmed ∨ m.state = .broken →
              t.dev.monitor = { m with lastNotice := highByte w, lastAssert := lowByte w }))
          ∧ (d.permit = .asserted → d.permitConditions = true →
            (∀ w, d.port.frame.staging.control = some w → w.getLsbD 0 = false →
              t.dev.permit = .dropped ∧ t.dev.fpermit = false ∧ (d.Unread → told .permitDropped 0 3))
            ∧ ((∀ w, d.port.frame.staging.control = some w → w.getLsbD 0 = true) → d.Unread → t.dev.permit = .asserted))))
  ∧ (∀ (c : Cascades) (soft hard taken : Item) (rest : List Item) (d : Device) (risen index : Nat) (cause : BreakCause),
      c.dev.monitor.state = .armed → soft ∈ c.items → soft.job = .softRise risen → hard ∈ c.items → hard.job = .hardRise cause index →
      hard.origin = soft.origin → pickNext c = some (taken, rest, d) → taken ≠ soft ∧ soft ∈ rest)
  ∧ ∀ (skipped : List Word) (loss : Bool) (s : State),
      let d := s.dev.passWords skipped
      let lost := d.slotMap.badLimit ≤ min 255 (d.port.badRun + 1)
      d.lines.rstn = true → (d.port.frame.passage = .malformed ∨ ∃ n, d.port.frame.passage = .cycle n) → ¬(d.FrameIsGood ∧ loss = false) →
      d.permit = .asserted → d.permitConditions = true →
      ∃ t : State, exec (.cycleCompletion skipped loss) s = .next t
        ∧ (lost → t.dev.permit = .dropped ∧ t.dev.fpermit = false)
        ∧ (lost → d.Unread → (32 ≤ t.dev.events.records.length ∧ t.dev.events.overrun = true)
            ∨ ∃ (older between newer : List EventRecord) (e f : EventRecord),
              t.dev.events.records.drop d.events.records.length = older ++ e :: between ++ f :: newer
              ∧ e.kind = .linkLost ∧ e.stamp = d.port.cycleCount + 1 ∧ e.value = 2
              ∧ f = { kind := .permitDropped, source := 0, stamp := d.port.cycleCount + 1, value := 2 })
        ∧ (¬lost → d.Unread → t.dev.permit = .asserted)

/-- R162, R164: the actuator writes. A word out of range is BAD_PARAM and changes nothing. A SOURCE write that changes kind or index sets converging;
value, phase and countdown stand. SET_OUTPUT clamps and stores the fixedValue of a FIXED actuator, and is refused otherwise. -/
def Obligations.ActuatorWritesReplaceTheirFields : Prop :=
  ∀ (tag record : Byte) (p2 p3 p4 p5 p6 p7 : Word) (s : State), s.dev.Free →
    let d := s.dev
    let source := Instr.writeActuatorSource tag record p2 p3 p4 p5 p6 p7
    let brk := Instr.writeActuatorBreak tag record p2 p3 p4 p5
    let output := Instr.setOutput tag p2 p3
    let sourceFits := p4.toNat ≤ 10000 ∧ p5.toNat ≤ 10000 ∧ p6.toNat ≤ 10000 ∧ 1 ≤ p7.toNat ∧ p7.toNat ≤ 10000
    let breakFits := p2.toNat ≤ 3 ∧ p3.toNat ≤ 10000 ∧ 1 ≤ p4.toNat ∧ p4.toNat ≤ 10000 ∧ p5.toNat ≤ 255
    (16 ≤ record.toNat ∨ 2 < p2.toNat ∨ (p2 = 1 ∧ 12 ≤ p3.toNat) ∨ (p2 = 2 ∧ 8 ≤ p3.toNat) ∨ ¬sourceFits →
      Answers source s tag 3 .badParam [])
    ∧ (16 ≤ record.toNat ∨ ¬breakFits → Answers brk s tag 3 .badParam [])
    ∧ (∀ a : Fin 16, record.toNat = a.val →
        let x := d.actuators[a]
        (sourceFits → ∀ src : Source,
          ((p2 = 0 ∧ src = .fixed) ∨ (∃ z : Fin 12, p2 = 1 ∧ p3.toNat = z.val ∧ src = .zone z)
            ∨ (∃ j : Fin 8, p2 = 2 ∧ p3.toNat = j.val ∧ src = .term j)) →
          Leaves source s tag 3 (d.setActuator a { x with
            source := src, fixedValue := (p4.toNat : Int), onValue := (p5.toNat : Int), offValue := (p6.toNat : Int)
            slewMax := (p7.toNat : Int), converging := if x.source = src then x.converging else true })
            [toWord x.value, natWord x.phase.code])
        ∧ (breakFits → ∀ action : BreakAction, p2.toNat = action.code →
          Leaves brk s tag 3 (d.setActuator a { x with
            action := action, actionValue := (p3.toNat : Int), step := (p4.toNat : Int), delay := p5.toNat })
            [toWord x.value, natWord x.phase.code]))
    ∧ (d.mailbox.ready = false → Answers output s tag 9 .state [0xFFFF])
    ∧ (d.mailbox.ready = true →
        (16 ≤ p2.toNat → Answers output s tag 9 .badParam [])
        ∧ ∀ a : Fin 16, p2.toNat = a.val →
            let x := d.actuators[a]
            (x.source ≠ .fixed → Answers output s tag 9 .state [natWord x.source.kind.code])
            ∧ (x.source = .fixed →
                let v : Int := if p3.toInt < 0 then 0 else if 10000 < p3.toInt then 10000 else p3.toInt
                Leaves output s tag 9 (d.setActuator a { x with fixedValue := v })
                  [toWord v, if p3.toInt = v then 0 else 1, natWord x.phase.code]))

/-- R135, R143, R163, R169: the reads of the Break Monitor, its history (newest first), the actuators and the capture configuration answer the
fields as they stand, in the rules' order, and change nothing else; a record index or a part out of range is BAD_PARAM. -/
def Obligations.BreakActuatorAndCaptureReadsAnswer : Prop :=
  (∀ (tag record : Byte) (s : State), s.dev.Free →
     let d := s.dev
     let m := d.monitor
     let groups := (m.lastNotice ||| m.lastAssert) &&& m.membership
     (record = 0 → Answers (.readBreakConfig tag record) s tag 4 .ok
       [boolWord m.wbrkEnable, boolWord m.wbrkActive, m.membership.setWidth 16, natWord m.confirmTime])
     ∧ (record = 1 → ∃ hard soft web : Bool,
         (hard = true ↔ ∃ j : Fin 8, d.terms[j].binding = .hardBreak ∧ d.terms[j].value = true)
         ∧ (soft = true ↔ ∃ j : Fin 8, d.terms[j].binding = .softBreak ∧ d.terms[j].value = true)
         ∧ (web = true ↔ ∀ j : Fin 8, d.terms[j].binding = .webPresent → d.terms[j].value = true)
         ∧ Answers (.readBreakConfig tag record) s tag 4 .ok
           [natWord m.state.code, natWord m.countdown, natWord m.suspectTicks,
             boolWord (m.wbrkEnable && decide (d.lines.wbrk = some m.wbrkActive)), groups.setWidth 16, m.lastNotice.setWidth 16,
             m.lastAssert.setWidth 16, boolWord hard, boolWord soft, boolWord web, natWord m.history.length, m.declarations])
     ∧ (1 < record.toNat → Answers (.readBreakConfig tag record) s tag 4 .badParam [])
     ∧ (∀ older newer : List BreakRecord, ∀ r, m.history = older ++ r :: newer → newer.length = record.toNat → record.toNat < 8 →
         Answers (.readBreakHistory tag record) s tag 4 .ok
           [natWord m.history.length, 1, natWord r.cause.code, natWord r.causeIndex, r.stamp.extractLsb' 16 16, r.stamp.extractLsb' 0 16,
             toWord r.lead, r.trackMask.setWidth 16, natWord r.suspectDuration, r.sequence, m.declarations])
     ∧ (m.history.length ≤ record.toNat → record.toNat < 8 → Answers (.readBreakHistory tag record) s tag 4 .ok
         [natWord m.history.length, 0, 0, 0, 0, 0, 0, 0, 0, 0, m.declarations])
     ∧ (8 ≤ record.toNat → Answers (.readBreakHistory tag record) s tag 4 .badParam []))
  ∧
  (∀ (tag record : Byte) (part : Word) (s : State), s.dev.Free →
     let d := s.dev
     let q := d.capture
     (∀ a : Fin 16, record.toNat = a.val →
       let x := d.actuators[a]
       (part = 0 → Answers (.readActuator tag record part) s tag 4 .ok
         [natWord x.source.kind.code, natWord x.source.index, toWord x.fixedValue, toWord x.onValue, toWord x.offValue, toWord x.slewMax])
       ∧ (part = 1 → Answers (.readActuator tag record part) s tag 4 .ok
         [natWord x.action.code, toWord x.actionValue, toWord x.step, natWord x.delay])
       ∧ (part = 2 → ∃ (source : Int) (bound : Word),
           source = (match x.source with
             | .fixed => x.fixedValue
             | .zone z => d.zones[z].u
             | .term j => if d.terms[j].value = true then x.onValue else x.offValue)
           ∧ ((∃ (i : Fin 64) (e : SlotEntry), d.slotMap.entries[i] = some e ∧ e.role = .output a) → bound = 1)
           ∧ ((¬∃ (i : Fin 64) (e : SlotEntry), d.slotMap.entries[i] = some e ∧ e.role = .output a) → bound = 0)
           ∧ Answers (.readActuator tag record part) s tag 4 .ok
             [toWord x.value, natWord x.phase.code, natWord x.countdown, boolWord x.converging, boolWord x.unseen, toWord source, bound])
       ∧ (2 < part.toNat → Answers (.readActuator tag record part) s tag 4 .badParam []))
     ∧ (16 ≤ record.toNat → Answers (.readActuator tag record part) s tag 4 .badParam [])
     ∧ (record = 0 →
         let byte := fun i => match q.channels[i]? with
           | some c => BitVec.ofNat 8 c.val
           | none => 0
         Answers (.readCaptureConfig tag record) s tag 4 .ok
           [natWord q.mode.code, natWord q.decimation, natWord q.channels.length, byte 1 ++ byte 0, byte 3 ++ byte 2, byte 5 ++ byte 4,
             byte 7 ++ byte 6])
     ∧ (record = 1 → Answers (.readCaptureConfig tag record) s tag 4 .ok [natWord q.postCount, boolWord q.latchPending, natWord q.latchP])
     ∧ (record = 2 →
         let n := q.records.length
         let stamp := (q.records.getLast?.map CaptureRecord.stamp).getD 0
         Answers (.readCaptureConfig tag record) s tag 4 .ok
           [natWord q.state.code, natWord n, natWord q.position, natWord q.counter, natWord q.countdown,
             if n = 0 then 1 else if n < 256 then 0 else if n < 512 then 2 else 6, boolWord q.lastRequest, stamp.extractLsb' 16 16,
             stamp.extractLsb' 0 16])
     ∧ (2 < record.toNat → Answers (.readCaptureConfig tag record) s tag 4 .badParam []))

/-! ## Mailbox: capture, part state, events and SOFT_RESET -/

/-- R18, R129, R167, R168, R172, R173, R174: the capture commands and triggers. Record 0 takes mode, D and the channel list while no capture runs and no retained record needs the old
list; record 1 takes P, into the latch in POSTFILL. START, STOP, CLEAR and TRIGGER act by state; in UNCONFIGURED only CLEAR is accepted. A loaded
or discarded latch keeps its word (log 11). A term bound CAPTURE_TRIGGER gives its trigger, of source 3 and its index, in the event in which it
rises, and a fall gives none. A good completion whose control word brings the request up gives the trigger of source 1, before or after it makes its
record; a request that was already up, or is down, gives none; the statement takes terms and timers that read constants, no token and no command
beside it. The change of a line is an acceptance, which is the model's choice (log 20). -/
def Obligations.CaptureCommandsActByState : Prop :=
  (∀ (tag record : Byte) (mode decimation count : Word) (packed : Vector Word 4) (s : State), s.dev.Free → record ≠ 1 →
    let d := s.dev
    let q := d.capture
    let n := natWord q.records.length
    let capture := fun x : Capture => { d with capture := x }
    let running := q.state = .running ∨ q.state = .waiting ∨ q.state = .postfill
    let config := Instr.writeCaptureConfig tag record mode decimation count packed
    let post := Instr.writeCapturePostCount tag mode
    let bytes := [lowByte packed[0], highByte packed[0], lowByte packed[1], highByte packed[1], lowByte packed[2], highByte packed[2],
      lowByte packed[3], highByte packed[3]]
    let fits := fun cs : List (Fin 32) => record = 0 ∧ mode.toNat ≤ 2 ∧ 1 ≤ decimation.toNat ∧ decimation.toNat ≤ 256 ∧ 1 ≤ count.toNat
      ∧ count.toNat ≤ 8 ∧ cs.Nodup ∧ cs.map Fin.val = (bytes.take count.toNat).map BitVec.toNat
    let emptied := { q with records := [], position := 0, counter := 0, countdown := 0, markOwed := false }
    let words := fun t : Device => [natWord t.capture.state.code, natWord t.capture.records.length, natWord t.capture.flags]
    ((¬∃ cs, fits cs) → Answers config s tag 3 .badParam [])
    ∧ (∀ (cs : List (Fin 32)) (m : CaptureMode), fits cs → mode.toNat = m.code →
        (running → Answers config s tag 3 .state [natWord q.state.code])
        ∧ (q.state = .frozen → q.records ≠ [] → cs ≠ q.channels → Answers config s tag 3 .state [4, n])
        ∧ (q.state = .idle ∨ (q.state = .frozen ∧ (q.records = [] ∨ cs = q.channels)) →
            Leaves config s tag 3 (capture { q with mode := m, decimation := decimation.toNat, channels := cs }) [natWord q.state.code]))
    ∧ (mode = 0 ∨ 512 ≤ mode.toNat → Answers post s tag 3 .badParam [])
    ∧ (1 ≤ mode.toNat → mode.toNat ≤ 511 →
        (q.state = .postfill → Leaves post s tag 3 (capture { q with latchP := mode.toNat, latchPending := true }) [natWord q.postCount, 1])
        ∧ (q.state ≠ .postfill → Leaves post s tag 3 (capture { q with postCount := mode.toNat, latchPending := false }) [mode, 0]))
    ∧ Settles (.captureClear tag) s tag 14 { dev := capture { emptied with state := .idle } } words
    ∧ (d.mailbox.ready = false ∨ running → Answers (.captureStart tag) s tag 14 .state [natWord q.state.code])
    ∧ (d.mailbox.ready = false ∨ ¬running → Answers (.captureStop tag) s tag 14 .state [natWord q.state.code])
    ∧ (d.mailbox.ready = false → Answers (.captureTriggerCommand tag) s tag 14 .state [natWord q.state.code])
    ∧ (d.mailbox.ready = true →
        (¬running → Settles (.captureStart tag) s tag 14
          { dev := capture { emptied with state := if q.mode = .post then .waiting else .running } } words)
        ∧ (running → Settles (.captureStop tag) s tag 14
          { dev := (capture { q with state := .frozen, markOwed := false, countdown := 0 }).raise .captureFrozen 4 n } words)
        ∧ (q.state ≠ .running → q.state ≠ .waiting → Settles (.captureTriggerCommand tag) s tag 14 { dev := d } fun t => words t ++ [0])
        ∧ (q.state = .running ∨ q.state = .waiting →
            let loaded := if q.latchPending = true then { q with postCount := q.latchP, latchPending := false } else q
            (q.mode = .pre → Settles (.captureTriggerCommand tag) s tag 14
              { dev := ((capture { loaded with state := .frozen }).raise .captureTriggered 0 n).raise .captureFrozen 1 n }
              fun t => words t ++ [1])
            ∧ (q.mode = .post → Settles (.captureTriggerCommand tag) s tag 14
              { dev := (capture { loaded with state := .postfill, counter := 0, markOwed := true }).raise .captureTriggered 0 n }
              fun t => words t ++ [1])
            ∧ (q.mode = .window → Settles (.captureTriggerCommand tag) s tag 14
              { dev := (capture { loaded with
                  state := .postfill, countdown := loaded.postCount, counter := 0, markOwed := true }).raise .captureTriggered 0 n }
              fun t => words t ++ [1]))))
  ∧
  (∀ (level : Bool) (s : State) (j : Fin 8) (v : Bool), s.dev.MarkMovesTerm level j v →
    let q := s.dev.capture
    let n := natWord q.records.length
    let loaded := if q.latchPending = true then { q with postCount := q.latchP, latchPending := false } else q
    let rises := s.dev.terms[j].binding = .captureTrigger ∧ v = true ∧ (q.state = .running ∨ q.state = .waiting)
    ∃ t : State, exec (.markLevelChange level) s = .next t
      ∧ (let told := fun (kind : EventKind) (source : Nat) => s.dev.events.Told t.dev.events kind source s.dev.port.cycleCount n
        (rises → told .captureTriggered (3 + j.val)
          ∧ (q.mode = .pre → t.dev.capture = { loaded with state := .frozen } ∧ told .captureFrozen 1)
          ∧ (q.mode = .post → t.dev.capture = { loaded with state := .postfill, counter := 0, markOwed := true })
          ∧ (q.mode = .window →
              t.dev.capture = { loaded with state := .postfill, countdown := loaded.postCount, counter := 0, markOwed := true }))
        ∧ (¬rises → s.dev.terms[j].binding ≠ .hardBreak → t.dev.capture = q)))
  ∧
  (∀ (skipped : List Word) (s : State) (w : Word),
    let d := s.dev.passWords skipped
    let q := d.capture
    let rises := w.getLsbD 1 = true ∧ q.lastRequest = false
    let waits := q.state = .running ∨ q.state = .waiting
    d.lines.rstn = true → d.FrameIsGood → d.BringsNoCommand → d.Unread → d.port.frame.staging.control = some w →
    (∀ b, d.port.frame.staging.breakWord = some b → (highByte b ||| lowByte b) &&& d.monitor.membership = 0) →
    ∃ t : State, exec (.cycleCompletion skipped false) s = .next t
      ∧ t.dev.capture.lastRequest = w.getLsbD 1
      ∧ (rises → waits → (if q.mode = .pre then t.dev.capture.state = .frozen else t.dev.capture.state = .postfill ∨ t.dev.capture.state = .frozen)
          ∧ t.dev.capture.postCount = (if q.latchPending = true then q.latchP else q.postCount)
          ∧ ∃ n : Nat, (n = q.records.length ∨ (q.records.length < 512 ∧ n = q.records.length + 1))
            ∧ d.events.Told t.dev.events .captureTriggered 1 (d.port.cycleCount + 1) (natWord n))
      ∧ (¬rises → waits → t.dev.capture.state = q.state))

/-- R176, R177, R190, R191: the readouts. READ_CAPTURE returns the record at the read position and moves on, REWIND_CAPTURE returns to the oldest;
READ_EVENTS removes up to three records, the oldest or the oldest of the most urgent class, and keeps the order of the others;
CLEAR_EVENTS empties the queue. R188: an event that is raised joins the newest end of a queue of fewer than 32 records, stamped with the part
cycle count; with 32 records held it is dropped and overrun is set, and a read leaves overrun as it is. -/
def Obligations.ReadoutsGiveTheOldestFirst : Prop :=
  (∀ (d : Device) (kind : EventKind) (source : Nat) (value : Word),
    let e : EventRecord := { kind := kind, source := BitVec.ofNat 8 source, stamp := d.port.cycleCount, value := value }
    (d.events.records.length < 32 → d.raise kind source value = { d with events := { d.events with records := d.events.records ++ [e] } })
    ∧ (32 ≤ d.events.records.length → d.raise kind source value = { d with events := { d.events with overrun := true } }))
  ∧
  ∀ (tag : Byte) (s : State), s.dev.Free →
    let d := s.dev
    let q := d.capture
    let n := natWord q.records.length
    let es := d.events.records
    let eventWords := fun e : EventRecord =>
      [packBytes (BitVec.ofNat 8 e.kind.code) e.source, e.stamp.extractLsb' 16 16, e.stamp.extractLsb' 0 16, e.value]
    let head := fun taken left : List EventRecord =>
      0#1 ++ BitVec.ofBool d.events.overrun ++ BitVec.ofNat 6 left.length ++ BitVec.ofNat 8 taken.length
    let kept := fun left : List EventRecord => { d with events := { d.events with records := left } }
    (q.state = .running ∨ q.state = .waiting ∨ q.state = .postfill → Answers (.readCapture tag) s tag 15 .state [natWord q.state.code])
    ∧ (q.state = .idle ∨ q.state = .frozen →
        (q.position = q.records.length → Answers (.readCapture tag) s tag 15 .empty [n])
        ∧ ∀ (older newer : List CaptureRecord) (r : CaptureRecord), q.records = older ++ r :: newer → older.length = q.position →
            r.entries.length ≤ 8 →
              ∃ w3 w4 : Word, Leaves (.readCapture tag) s tag 15 { d with capture := { q with position := q.position + 1 } }
                ([r.stamp.extractLsb' 16 16, r.stamp.extractLsb' 0 16, toWord r.lead, w3, w4] ++ r.entries.map fun e => toWord e.1)
              ∧ (w3.extractLsb' 0 2).toNat = r.breakState.code ∧ w3.getLsbD 2 = r.mark ∧ w3.getLsbD 3 = r.good
              ∧ (w3.extractLsb' 4 4).toNat = r.entries.length ∧ w3.extractLsb' 8 8 = 0#8
              ∧ ∀ j : Fin 8, (w4.extractLsb' (2 * j.val) 2).toNat = match r.entries[j.val]? with
                  | some e => e.2.code
                  | none => 0)
    ∧ Leaves (.rewindCapture tag) s tag 16 { d with capture := { q with position := 0 } } [n]
    ∧ (es.length ≤ 32 → Leaves (.readEventsOldest tag) s tag 17 (kept (es.drop 3))
        (head (es.take 3) (es.drop 3) :: (es.take 3).flatMap eventWords))
    ∧ (es.length ≤ 32 → es = [] → Leaves (.readEventsUrgent tag) s tag 17 d [head [] []])
    ∧ (es.length ≤ 32 → ∀ p : Nat, (∃ e ∈ es, e.kind.priority = p) → (∀ e ∈ es, p ≤ e.kind.priority) →
        ∃ taken left : List EventRecord,
          Leaves (.readEventsUrgent tag) s tag 17 (kept left) (head taken left :: taken.flatMap eventWords)
          ∧ taken = (es.filter fun e => e.kind.priority == p).take 3
          ∧ left.filter (fun e => e.kind.priority == p) = (es.filter fun e => e.kind.priority == p).drop 3
          ∧ left.filter (fun e => e.kind.priority != p) = es.filter (fun e => e.kind.priority != p)
          ∧ left.Sublist es)
    ∧ Leaves (.clearEvents tag) s tag 18 { d with events := { records := [], overrun := false } } [natWord es.length]

/-- R186: CONFIGURE_DONE. In READY it is STATE; in UNCONFIGURED the first item of the configuration that fails refuses it and changes nothing, and
with every item passed the part becomes READY. -/
def Obligations.ConfigureDoneExaminesEveryItem : Prop :=
  ∀ (tag : Byte) (s : State), s.dev.Free →
    let d := s.dev
    let done := Instr.configureDone tag
    let bound := fun r : Role => ∃ (i : Fin 64) (e : SlotEntry), d.slotMap.entries[i] = some e ∧ e.role = r
    let c := d.speed.speedChannel
    let served := fun z : Fin 12 => d.zones[z].enabled = true → bound (.input d.zones[z].measChannel)
    (d.mailbox.ready = true → Answers done s tag 7 .state [1])
    ∧ (d.mailbox.ready = false →
        (¬bound .control → Answers done s tag 7 .configInvalid [1, 0, 0])
        ∧ (bound .control →
            (¬bound (.input c) → Answers done s tag 7 .configInvalid [2, natWord c.val, 0])
            ∧ (bound (.input c) →
                (d.channels[c].kind ≠ .speed →
                  Answers done s tag 7 .configInvalid [3, natWord c.val, natWord d.channels[c].kind.code])
                ∧ (d.channels[c].kind = .speed →
                    (∀ z : Fin 12, ¬served z → (∀ y : Fin 12, y < z → served y) →
                      Answers done s tag 7 .configInvalid [4, natWord z.val, natWord d.zones[z].measChannel.val])
                    ∧ ((∀ z : Fin 12, served z) →
                        (d.capture.channels = [] → Answers done s tag 7 .configInvalid [5, 0, 0])
                        ∧ (d.capture.channels ≠ [] →
                            Leaves done s tag 7 { d with mailbox := { d.mailbox with ready := true } } [1]))))))

/-- R187 and the SOFT_RESET columns of every chapter: what a SOFT_RESET leaves, whatever the Mailbox held. Configuration, channels, banks, Slot Map,
link state and histories are kept; RESET_DONE stands alone in the queue. -/
def Obligations.SoftResetLeavesTheResetValues : Prop :=
  ∀ (tag : Byte) (s : State), s.dev.lines.rstn = true → s.dev.mailbox.nodeAddress ≠ 0 →
    let d := s.dev
    ∃ t : State, exec (.softReset tag) s = .next t
      ∧ t.dev.lines = d.lines ∧ t.dev.slotMap = d.slotMap ∧ t.dev.channels = d.channels
      ∧ t.dev.port = { d.port with
          cycleCount := 0, permitRequest := false, triggerRequest := false, frame := { d.port.frame with staging := {} } }
      ∧ t.dev.speed = { d.speed with state := .unknown, history := [], a := 0 }
      ∧ t.dev.profile = { d.profile with commit := none }
      ∧ (∀ z : Fin 12, t.dev.zones[z] = { d.zones[z] with
          mode := .off, returnMode := .none, u := 0, i := 0, limitDir := .none, purgeCount := 0, faultDeferred := false, bumpless := false })
      ∧ (∀ k : Fin 6,
          let n := if d.timers[k].latchPending = true then d.timers[k].latchN else d.timers[k].n
          t.dev.timers[k] = { d.timers[k] with
            n := n, latchN := n, latchPending := false, counting := false, count := 0, output := false
            inputLevel := t.dev.level d.timers[k].input })
      ∧ ((∀ i : Fin 8, ∀ c ∈ d.terms[i].inputs, c.below i = true) →
          ∀ j : Fin 8, t.dev.terms[j] = { d.terms[j] with value := t.dev.selected d.terms[j], deferred := false })
      ∧ t.dev.permit = .dropped ∧ t.dev.monitor = { d.monitor with state := .disarmed, countdown := 0, suspectTicks := 0 }
      ∧ (∀ a : Fin 16, t.dev.actuators[a] = { d.actuators[a] with
          value := 0, phase := .none, countdown := 0, converging := false, unseen := false })
      ∧ (let p := if d.capture.latchPending = true then d.capture.latchP else d.capture.postCount
         t.dev.capture = { d.capture with
          postCount := p, latchP := p, latchPending := false, state := if d.capture.records = [] then .idle else .frozen
          position := 0, counter := 0, countdown := 0, markOwed := false, lastRequest := false })
      ∧ t.dev.mailbox = { nodeAddress := d.mailbox.nodeAddress, executing := none, pending := none, written := false, ready := false }
      ∧ t.dev.events = { records := [{ kind := .resetDone, source := 0, stamp := 0, value := 0 }], overrun := false }

/-! ## What the blocks compute -/

/-- R29 to R35: a sample at a channel. The fault code makes it FAILED at once and holds its values. On an analog channel the value is scaled,
truncated toward zero and clamped; the filter is seeded or moved by alpha/256 of the distance and stays within lo..hi; the channel is
FRESH with age 0; the comparators are decided afresh or with hysteresis. A DISCRETE channel takes 0 or 1. -/
def Obligations.SampleIsScaledFilteredAndCompared : Prop :=
  ∀ (x : Channel) (w : Word),
    let y := (x.takeSample w).1
    let seeds := x.validity = .none ∨ x.validity = .failed
    (w = 0x8000 → y.raw = -32768 ∧ y.validity = .failed ∧ y.value = x.value ∧ y.filtered = x.filtered ∧ y.limited = x.limited
      ∧ y.age = x.age
      ∧ (x.validity = .failed → y = { x with raw := -32768 } ∧ (x.takeSample w).2 = [])
      ∧ (x.validity ≠ .failed → y.hiSet = (x.failState && x.kind != .discrete) ∧ y.loSet = (x.failState && x.kind != .discrete)
          ∧ (x.takeSample w).2.head? = some (.channelFailed, 1)))
    ∧ (w ≠ 0x8000 → x.kind ≠ .discrete →
        let unclamped := (w.toInt * x.gain).tdiv 4096 + x.offset
        let v := if unclamped < x.lo then x.lo else if x.hi < unclamped then x.hi else unclamped
        let f := if seeds then v else x.filtered + ((v - x.filtered) * x.alpha).tdiv 256
        y = { x with
            raw := w.toInt, value := v, limited := decide (v ≠ unclamped), filtered := f, age := 0, validity := .fresh
            hiSet := if x.hiLimit ≤ f then true else if seeds ∨ f < x.hiLimit - x.hyst then false else x.hiSet
            loSet := if f ≤ x.loLimit then true else if seeds ∨ x.loLimit + x.hyst < f then false else x.loSet }
        ∧ (x.lo ≤ x.hi → 1 ≤ x.alpha → x.alpha ≤ 256 → (seeds ∨ (x.lo ≤ x.filtered ∧ x.filtered ≤ x.hi)) →
            x.lo ≤ y.filtered ∧ y.filtered ≤ x.hi)
        ∧ (x.takeSample w).2 =
            (if x.validity = .failed then [(.channelFresh, 3)]
              else if x.validity = .stale ∧ x.enableStale = true then [(.channelFresh, 2)] else [])
            ++ (if y.hiSet ≠ x.hiSet ∧ x.enableHi = true then [(.channelHi, boolWord y.hiSet)] else [])
            ++ (if y.loSet ≠ x.loSet ∧ x.enableLo = true then [(.channelLo, boolWord y.loSet)] else []))
    ∧ (w ≠ 0x8000 → x.kind = .discrete →
        let v : Int := if w = 0 then 0 else 1
        y = { x with
          raw := w.toInt, value := v, filtered := v, limited := false, age := 0, validity := .fresh, hiSet := false, loSet := false })

/-- R46, R47, R48: a speed sample in its three steps: the history of eight, the acceleration across it, the lead speed truncated and clamped,
and the first row of the state table that holds. -/
def Obligations.SpeedSampleGivesLeadAndState : Prop :=
  ∀ (x : Speed) (v : Int), x.history.length ≤ 8 → (∀ u ∈ x.history, 0 ≤ u ∧ u ≤ 1500) → 0 ≤ v → v ≤ 1500 → 0 ≤ x.leadFactor →
    x.leadFactor ≤ 255 →
      let y := x.takeSample v
      let l := y.v + (y.a * x.leadFactor).tdiv 8
      y.v = v
      ∧ (x.history.length < 8 → y.history = x.history ++ [v])
      ∧ (∀ u rest, x.history = u :: rest → rest.length = 7 → y.history = rest ++ [v])
      ∧ (y.history.length < 8 → y.a = 0)
      ∧ (∀ u rest, y.history = u :: rest → rest.length = 7 → y.a = v - u)
      ∧ -1500 ≤ y.a ∧ y.a ≤ 1500
      ∧ -47812 ≤ l ∧ l ≤ 49312 ∧ y.lead = (if l < 0 then 0 else if 1500 < l then 1500 else l)
      ∧ y.state = (if v < x.crawlSpeed then .stopped
          else if v < x.runSpeed then .crawl
          else if x.accelBand ≤ y.a then .accel
          else if y.a ≤ -x.accelBand then .decel
          else .steady)
      ∧ (y.speedChannel = x.speedChannel ∧ y.crawlSpeed = x.crawlSpeed ∧ y.runSpeed = x.runSpeed ∧ y.accelBand = x.accelBand
          ∧ y.leadFactor = x.leadFactor)

/-- R93 to R101: a sample arrival at a zone in PREHEAT or TRACK. Above its band it goes to FAULT with cause 2 and makes no update. Otherwise the
nine steps run: W moves at most rampStep toward its target, I takes its increment unless the output was held back that way, and U moves
at most slewMax; a rebase leaves U where it stood. -/
def Obligations.ZoneUpdateFollowsTheNineSteps : Prop :=
  ∀ (d : Device) (z : Fin 12),
    let x := d.zones[z]
    let m := d.channels[x.measChannel].filtered
    x.mode = .preheat ∨ x.mode = .track →
      (x.spMax + x.overBand < m → d.zoneArrival z = d.faultZone z 2)
      ∧ (m ≤ x.spMax + x.overBand → x.InRange →
          let y := (d.zoneArrival z).zones[z]
          let tracks := x.mode = .track ∨ (x.autoTrack = true ∧ d.monitor.state = .armed ∧ d.speed.state ≠ .unknown
            ∧ d.speed.state ≠ .stopped ∧ d.profile.active[z].length ≠ 0)
          let look := d.profile.active[z].lookup d.speed.lead
          let target := clamp x.spMin x.spMax (if tracks then look.1 else x.preheatSetpoint)
          let f := if tracks then look.2 else 0
          let e := clamp (-2000) 2000 (if z.val ≤ 7 then y.w - m else m - y.w)
          let p := (x.kp * e).tdiv 64
          let di := (x.ki * e).tdiv 1024
          let held := (x.limitDir = .up ∧ 0 < di) ∨ (x.limitDir = .down ∧ di < 0)
          let rebases := tracks ∧ x.bumpless = true
          let raw := f + p + y.i
          let u1 := clamp x.outMin x.outMax raw
          y.mode = (if tracks then .track else .preheat)
          ∧ y.w = (if x.w < target then min (x.w + x.rampStep) target else if target < x.w then max (x.w - x.rampStep) target else x.w)
          ∧ y.i = clamp (-10000) 10000 (if rebases then x.u - f - p else if held then x.i else x.i + di)
          ∧ y.u = (if x.u - x.slewMax ≤ u1 ∧ u1 ≤ x.u + x.slewMax then u1 else if u1 < x.u then x.u - x.slewMax else x.u + x.slewMax)
          ∧ y.limitDir = (if y.u < raw then .up else if raw < y.u then .down else .none)
          ∧ y.bumpless = (if rebases then false else x.bumpless)
          ∧ min x.u u1 ≤ y.u ∧ y.u ≤ max x.u u1
          ∧ (rebases → -10000 ≤ x.u - f - p → x.u - f - p ≤ 10000 → x.outMin ≤ x.u → x.u ≤ x.outMax → y.u = x.u ∧ y.limitDir = .none)
          ∧ ∀ i : Fin 12, i ≠ z → (d.zoneArrival z).zones[i] = d.zones[i])

/-- R53, R106, R107, R109 to R113, R123: what an input edge and a clock do, mode by mode; the flag of a clock is its terminal event. A loaded latch
keeps its word (log 11). And the edges arrive: at a change of the MARK level, a unit that reads MARK takes the edge to the new level, once, and so
does one that reads a term which the change moves; a unit already at that level takes none. A MARK unit that reads MARK takes the clock of the
same rise before or after its edge. The change of the line is an acceptance, which is the model's choice (log 20). -/
def Obligations.TimerEdgesAndClocksByMode : Prop :=
  (∀ (x : Timer) (level : Bool),
    let selected := x.edge = .both ∨ (x.edge = .rise ∧ level = true) ∨ (x.edge = .fall ∧ level = false)
    let n := if x.latchPending = true then x.latchN else x.n
    let started := { x with inputLevel := level, n := n, latchPending := false, counting := true, count := 0 }
    let ends := x.n ≤ x.count + 1
    (x.mode = .delay → selected → x.takeEdge level = started)
    ∧ (x.mode = .delay → ¬selected → x.takeEdge level = { x with inputLevel := level, counting := false, count := 0, output := level })
    ∧ (x.mode = .oneShot ∨ x.mode = .edge → selected → x.output = false → x.takeEdge level = { started with output := true })
    ∧ (x.mode = .oneShot ∨ x.mode = .edge → ¬selected ∨ x.output = true → x.takeEdge level = { x with inputLevel := level })
    ∧ (x.mode = .gap → selected → x.takeEdge level = { started with output := if x.counting = true then true else x.output })
    ∧ (x.mode = .gap → ¬selected → x.takeEdge level = { x with inputLevel := level })
    ∧ (x.mode = .count → x.takeEdge level = { x with inputLevel := level, count := if level = true then 0 else x.count })
    ∧ (x.mode ≠ .count → x.counting = false → x.takeClock = (x, false))
    ∧ (x.mode = .delay → x.counting = true → x.takeClock =
        if ends then ({ x with counting := false, count := 0, output := x.inputLevel }, true)
        else ({ x with count := x.count + 1 }, false))
    ∧ (x.mode = .oneShot ∨ x.mode = .gap → x.counting = true → x.takeClock =
        if ends then ({ x with counting := false, count := 0, output := false }, true) else ({ x with count := x.count + 1 }, false))
    ∧ (x.mode = .edge → x.counting = true → x.takeClock = ({ x with counting := false, count := 0, output := false }, true))
    ∧ (x.mode = .count → x.inputLevel = true → x.takeClock = ({ x with output := false }, false))
    ∧ (x.mode = .count → x.inputLevel = false → x.takeClock =
        if ends then ({ x with count := 0, n := n, latchPending := false, output := true }, true)
        else ({ x with output := false, count := x.count + 1 }, false)))
  ∧
  (∀ (level : Bool) (s : State), s.dev.lines.rstn = true → s.dev.lines.mark = some (!level) →
    ∃ t : State, exec (.markLevelChange level) s = .next t ∧ ∀ k : Fin 6,
      let x := s.dev.timers[k]
      let edge := fun (y : Timer) (v : Bool) => if y.inputLevel = v then y else y.takeEdge v
      (x.input = .markLevel → x.clock = .tick ∨ x.clock = .cycle ∨ (x.clock = .mark ∧ (level = false ∨ x.hold = .fixed true)) →
        t.dev.timers[k] = edge x level)
      ∧ (x.input = .markLevel → x.clock = .mark → level = true → x.hold = .fixed false →
        t.dev.timers[k] = (edge x level).takeClock.1 ∨ t.dev.timers[k] = edge x.takeClock.1 level)
      ∧ ∀ (j : Fin 8) (v : Bool), s.dev.MarkMovesTerm level j v → x.input = .term j → x.clock = .tick ∨ x.clock = .cycle →
        t.dev.timers[k] = edge x v)

/-! ## What every step keeps -/

/-- R130, R131: in every state that a step reaches from a safe one, an ASSERTED permit has the part READY, the link LOCKED, the permit request set
and every FIRE_QUALIFIER term true; and the FPERMIT line is asserted only then, with RSTN high. -/
def Obligations.StepKeepsThePermitSafe : Prop :=
  ∀ s t : State, s.dev.PermitSafe → step s = .next t →
    t.dev.PermitSafe
      ∧ (t.dev.fpermit = true →
          t.dev.lines.rstn = true ∧ t.dev.permit = .asserted ∧ t.dev.mailbox.ready = true ∧ t.dev.port.link = .locked
          ∧ t.dev.port.permitRequest = true ∧ ∀ j : Fin 8, t.dev.terms[j].binding = .fireQualifier → t.dev.terms[j].value = true)

/-- R62, R63, R64, R178: every step keeps the bond of a commit: a command executes exactly while zones carry their marks, only TRACK zones carry
one, and the record's masks account for every zone. -/
def Obligations.StepKeepsTheCommitWait : Prop :=
  ∀ s t : State, s.dev.CommitWaits → step s = .next t → t.dev.CommitWaits

/-- R71 to R74, R89, R95, R97, R99, R100, R152, R154, R157, R159: every step keeps every zone and every actuator in range: each configuration field
in its table's range, W within spMin..spMax, I within −10000..10000, every output within 0..10000; and a zone's purge countdown, at most 65535,
runs exactly in PURGE, an actuator's countdown, at most 255, exactly in DELAYING. -/
def Obligations.StepKeepsOutputsInRange : Prop :=
  ∀ s t : State, s.dev.OutputsInRange → step s = .next t → t.dev.OutputsInRange

/-- R4, R54, R55, R122, R123, R124: every step keeps the tables: no slot or role twice in the Slot Map, every ACTIVE curve empty or strictly
ascending with its entries in range, and every term that is not deferred at the entry that its inputs select. -/
def Obligations.StepKeepsTheTablesSound : Prop :=
  ∀ s t : State, step s = .next t →
    (s.dev.slotMap.NoDuplicates → t.dev.slotMap.NoDuplicates)
      ∧ (s.dev.CurvesValid → t.dev.CurvesValid)
      ∧ (s.dev.TermsSettled → t.dev.TermsSettled)

/-- R42, R104, R130, R134, R140, R143, R157, R166, R188: every step keeps the blocks sound: no list beyond its capacity, every count below its N,
the countdown running exactly in SUSPECT, break phases only in BROKEN, and an UNCONFIGURED part idle. -/
def Obligations.StepKeepsTheBlocksSound : Prop :=
  ∀ s t : State, step s = .next t →
    (s.dev.Bounded → t.dev.Bounded)
      ∧ (s.dev.TimersSound → t.dev.TimersSound)
      ∧ (s.dev.MonitorSound → s.dev.UnconfiguredIdle → t.dev.MonitorSound ∧ t.dev.UnconfiguredIdle)
end

