-- ==== Sys2Proof/Laws/State.lean ====
section
/-! SUPPORT. What each update of the device leaves, field by field, and what reading a table after a write gives. -/

namespace Sys2Proof.Machine

/-! ## setChannel -/

@[simp] theorem Device.setChannel_lines (d : Device) (c : Fin 32) (x : Channel) : (d.setChannel c x).lines = d.lines := rfl
@[simp] theorem Device.setChannel_port (d : Device) (c : Fin 32) (x : Channel) : (d.setChannel c x).port = d.port := rfl
@[simp] theorem Device.setChannel_slotMap (d : Device) (c : Fin 32) (x : Channel) : (d.setChannel c x).slotMap = d.slotMap := rfl
@[simp] theorem Device.setChannel_channels (d : Device) (c : Fin 32) (x : Channel) : (d.setChannel c x).channels = d.channels.set c x := rfl
@[simp] theorem Device.setChannel_speed (d : Device) (c : Fin 32) (x : Channel) : (d.setChannel c x).speed = d.speed := rfl
@[simp] theorem Device.setChannel_profile (d : Device) (c : Fin 32) (x : Channel) : (d.setChannel c x).profile = d.profile := rfl
@[simp] theorem Device.setChannel_zones (d : Device) (c : Fin 32) (x : Channel) : (d.setChannel c x).zones = d.zones := rfl
@[simp] theorem Device.setChannel_timers (d : Device) (c : Fin 32) (x : Channel) : (d.setChannel c x).timers = d.timers := rfl
@[simp] theorem Device.setChannel_terms (d : Device) (c : Fin 32) (x : Channel) : (d.setChannel c x).terms = d.terms := rfl
@[simp] theorem Device.setChannel_permit (d : Device) (c : Fin 32) (x : Channel) : (d.setChannel c x).permit = d.permit := rfl
@[simp] theorem Device.setChannel_monitor (d : Device) (c : Fin 32) (x : Channel) : (d.setChannel c x).monitor = d.monitor := rfl
@[simp] theorem Device.setChannel_actuators (d : Device) (c : Fin 32) (x : Channel) : (d.setChannel c x).actuators = d.actuators := rfl
@[simp] theorem Device.setChannel_capture (d : Device) (c : Fin 32) (x : Channel) : (d.setChannel c x).capture = d.capture := rfl
@[simp] theorem Device.setChannel_mailbox (d : Device) (c : Fin 32) (x : Channel) : (d.setChannel c x).mailbox = d.mailbox := rfl
@[simp] theorem Device.setChannel_events (d : Device) (c : Fin 32) (x : Channel) : (d.setChannel c x).events = d.events := rfl
@[simp] theorem Device.setChannel_choices (d : Device) (c : Fin 32) (x : Channel) : (d.setChannel c x).choices = d.choices := rfl
@[simp] theorem Device.setChannel_breakMet (d : Device) (c : Fin 32) (x : Channel) : (d.setChannel c x).breakMet = d.breakMet := rfl

/-! ## setZone -/

@[simp] theorem Device.setZone_lines (d : Device) (z : Fin 12) (x : Zone) : (d.setZone z x).lines = d.lines := rfl
@[simp] theorem Device.setZone_port (d : Device) (z : Fin 12) (x : Zone) : (d.setZone z x).port = d.port := rfl
@[simp] theorem Device.setZone_slotMap (d : Device) (z : Fin 12) (x : Zone) : (d.setZone z x).slotMap = d.slotMap := rfl
@[simp] theorem Device.setZone_channels (d : Device) (z : Fin 12) (x : Zone) : (d.setZone z x).channels = d.channels := rfl
@[simp] theorem Device.setZone_speed (d : Device) (z : Fin 12) (x : Zone) : (d.setZone z x).speed = d.speed := rfl
@[simp] theorem Device.setZone_profile (d : Device) (z : Fin 12) (x : Zone) : (d.setZone z x).profile = d.profile := rfl
@[simp] theorem Device.setZone_zones (d : Device) (z : Fin 12) (x : Zone) : (d.setZone z x).zones = d.zones.set z x := rfl
@[simp] theorem Device.setZone_timers (d : Device) (z : Fin 12) (x : Zone) : (d.setZone z x).timers = d.timers := rfl
@[simp] theorem Device.setZone_terms (d : Device) (z : Fin 12) (x : Zone) : (d.setZone z x).terms = d.terms := rfl
@[simp] theorem Device.setZone_permit (d : Device) (z : Fin 12) (x : Zone) : (d.setZone z x).permit = d.permit := rfl
@[simp] theorem Device.setZone_monitor (d : Device) (z : Fin 12) (x : Zone) : (d.setZone z x).monitor = d.monitor := rfl
@[simp] theorem Device.setZone_actuators (d : Device) (z : Fin 12) (x : Zone) : (d.setZone z x).actuators = d.actuators := rfl
@[simp] theorem Device.setZone_capture (d : Device) (z : Fin 12) (x : Zone) : (d.setZone z x).capture = d.capture := rfl
@[simp] theorem Device.setZone_mailbox (d : Device) (z : Fin 12) (x : Zone) : (d.setZone z x).mailbox = d.mailbox := rfl
@[simp] theorem Device.setZone_events (d : Device) (z : Fin 12) (x : Zone) : (d.setZone z x).events = d.events := rfl
@[simp] theorem Device.setZone_choices (d : Device) (z : Fin 12) (x : Zone) : (d.setZone z x).choices = d.choices := rfl
@[simp] theorem Device.setZone_breakMet (d : Device) (z : Fin 12) (x : Zone) : (d.setZone z x).breakMet = d.breakMet := rfl

/-! ## setTimer -/

@[simp] theorem Device.setTimer_lines (d : Device) (k : Fin 6) (x : Timer) : (d.setTimer k x).lines = d.lines := rfl
@[simp] theorem Device.setTimer_port (d : Device) (k : Fin 6) (x : Timer) : (d.setTimer k x).port = d.port := rfl
@[simp] theorem Device.setTimer_slotMap (d : Device) (k : Fin 6) (x : Timer) : (d.setTimer k x).slotMap = d.slotMap := rfl
@[simp] theorem Device.setTimer_channels (d : Device) (k : Fin 6) (x : Timer) : (d.setTimer k x).channels = d.channels := rfl
@[simp] theorem Device.setTimer_speed (d : Device) (k : Fin 6) (x : Timer) : (d.setTimer k x).speed = d.speed := rfl
@[simp] theorem Device.setTimer_profile (d : Device) (k : Fin 6) (x : Timer) : (d.setTimer k x).profile = d.profile := rfl
@[simp] theorem Device.setTimer_zones (d : Device) (k : Fin 6) (x : Timer) : (d.setTimer k x).zones = d.zones := rfl
@[simp] theorem Device.setTimer_timers (d : Device) (k : Fin 6) (x : Timer) : (d.setTimer k x).timers = d.timers.set k x := rfl
@[simp] theorem Device.setTimer_terms (d : Device) (k : Fin 6) (x : Timer) : (d.setTimer k x).terms = d.terms := rfl
@[simp] theorem Device.setTimer_permit (d : Device) (k : Fin 6) (x : Timer) : (d.setTimer k x).permit = d.permit := rfl
@[simp] theorem Device.setTimer_monitor (d : Device) (k : Fin 6) (x : Timer) : (d.setTimer k x).monitor = d.monitor := rfl
@[simp] theorem Device.setTimer_actuators (d : Device) (k : Fin 6) (x : Timer) : (d.setTimer k x).actuators = d.actuators := rfl
@[simp] theorem Device.setTimer_capture (d : Device) (k : Fin 6) (x : Timer) : (d.setTimer k x).capture = d.capture := rfl
@[simp] theorem Device.setTimer_mailbox (d : Device) (k : Fin 6) (x : Timer) : (d.setTimer k x).mailbox = d.mailbox := rfl
@[simp] theorem Device.setTimer_events (d : Device) (k : Fin 6) (x : Timer) : (d.setTimer k x).events = d.events := rfl
@[simp] theorem Device.setTimer_choices (d : Device) (k : Fin 6) (x : Timer) : (d.setTimer k x).choices = d.choices := rfl
@[simp] theorem Device.setTimer_breakMet (d : Device) (k : Fin 6) (x : Timer) : (d.setTimer k x).breakMet = d.breakMet := rfl

/-! ## setTerm -/

@[simp] theorem Device.setTerm_lines (d : Device) (j : Fin 8) (x : Term) : (d.setTerm j x).lines = d.lines := rfl
@[simp] theorem Device.setTerm_port (d : Device) (j : Fin 8) (x : Term) : (d.setTerm j x).port = d.port := rfl
@[simp] theorem Device.setTerm_slotMap (d : Device) (j : Fin 8) (x : Term) : (d.setTerm j x).slotMap = d.slotMap := rfl
@[simp] theorem Device.setTerm_channels (d : Device) (j : Fin 8) (x : Term) : (d.setTerm j x).channels = d.channels := rfl
@[simp] theorem Device.setTerm_speed (d : Device) (j : Fin 8) (x : Term) : (d.setTerm j x).speed = d.speed := rfl
@[simp] theorem Device.setTerm_profile (d : Device) (j : Fin 8) (x : Term) : (d.setTerm j x).profile = d.profile := rfl
@[simp] theorem Device.setTerm_zones (d : Device) (j : Fin 8) (x : Term) : (d.setTerm j x).zones = d.zones := rfl
@[simp] theorem Device.setTerm_timers (d : Device) (j : Fin 8) (x : Term) : (d.setTerm j x).timers = d.timers := rfl
@[simp] theorem Device.setTerm_terms (d : Device) (j : Fin 8) (x : Term) : (d.setTerm j x).terms = d.terms.set j x := rfl
@[simp] theorem Device.setTerm_permit (d : Device) (j : Fin 8) (x : Term) : (d.setTerm j x).permit = d.permit := rfl
@[simp] theorem Device.setTerm_monitor (d : Device) (j : Fin 8) (x : Term) : (d.setTerm j x).monitor = d.monitor := rfl
@[simp] theorem Device.setTerm_actuators (d : Device) (j : Fin 8) (x : Term) : (d.setTerm j x).actuators = d.actuators := rfl
@[simp] theorem Device.setTerm_capture (d : Device) (j : Fin 8) (x : Term) : (d.setTerm j x).capture = d.capture := rfl
@[simp] theorem Device.setTerm_mailbox (d : Device) (j : Fin 8) (x : Term) : (d.setTerm j x).mailbox = d.mailbox := rfl
@[simp] theorem Device.setTerm_events (d : Device) (j : Fin 8) (x : Term) : (d.setTerm j x).events = d.events := rfl
@[simp] theorem Device.setTerm_choices (d : Device) (j : Fin 8) (x : Term) : (d.setTerm j x).choices = d.choices := rfl
@[simp] theorem Device.setTerm_breakMet (d : Device) (j : Fin 8) (x : Term) : (d.setTerm j x).breakMet = d.breakMet := rfl

/-! ## setActuator -/

@[simp] theorem Device.setActuator_lines (d : Device) (a : Fin 16) (x : Actuator) : (d.setActuator a x).lines = d.lines := rfl
@[simp] theorem Device.setActuator_port (d : Device) (a : Fin 16) (x : Actuator) : (d.setActuator a x).port = d.port := rfl
@[simp] theorem Device.setActuator_slotMap (d : Device) (a : Fin 16) (x : Actuator) : (d.setActuator a x).slotMap = d.slotMap := rfl
@[simp] theorem Device.setActuator_channels (d : Device) (a : Fin 16) (x : Actuator) : (d.setActuator a x).channels = d.channels := rfl
@[simp] theorem Device.setActuator_speed (d : Device) (a : Fin 16) (x : Actuator) : (d.setActuator a x).speed = d.speed := rfl
@[simp] theorem Device.setActuator_profile (d : Device) (a : Fin 16) (x : Actuator) : (d.setActuator a x).profile = d.profile := rfl
@[simp] theorem Device.setActuator_zones (d : Device) (a : Fin 16) (x : Actuator) : (d.setActuator a x).zones = d.zones := rfl
@[simp] theorem Device.setActuator_timers (d : Device) (a : Fin 16) (x : Actuator) : (d.setActuator a x).timers = d.timers := rfl
@[simp] theorem Device.setActuator_terms (d : Device) (a : Fin 16) (x : Actuator) : (d.setActuator a x).terms = d.terms := rfl
@[simp] theorem Device.setActuator_permit (d : Device) (a : Fin 16) (x : Actuator) : (d.setActuator a x).permit = d.permit := rfl
@[simp] theorem Device.setActuator_monitor (d : Device) (a : Fin 16) (x : Actuator) : (d.setActuator a x).monitor = d.monitor := rfl
@[simp] theorem Device.setActuator_actuators (d : Device) (a : Fin 16) (x : Actuator) : (d.setActuator a x).actuators = d.actuators.set a x := rfl
@[simp] theorem Device.setActuator_capture (d : Device) (a : Fin 16) (x : Actuator) : (d.setActuator a x).capture = d.capture := rfl
@[simp] theorem Device.setActuator_mailbox (d : Device) (a : Fin 16) (x : Actuator) : (d.setActuator a x).mailbox = d.mailbox := rfl
@[simp] theorem Device.setActuator_events (d : Device) (a : Fin 16) (x : Actuator) : (d.setActuator a x).events = d.events := rfl
@[simp] theorem Device.setActuator_choices (d : Device) (a : Fin 16) (x : Actuator) : (d.setActuator a x).choices = d.choices := rfl
@[simp] theorem Device.setActuator_breakMet (d : Device) (a : Fin 16) (x : Actuator) : (d.setActuator a x).breakMet = d.breakMet := rfl

/-! ## setFrame -/

@[simp] theorem Device.setFrame_lines (d : Device) (f : FramePassage) : (d.setFrame f).lines = d.lines := rfl
@[simp] theorem Device.setFrame_port (d : Device) (f : FramePassage) : (d.setFrame f).port = { d.port with frame := f } := rfl
@[simp] theorem Device.setFrame_slotMap (d : Device) (f : FramePassage) : (d.setFrame f).slotMap = d.slotMap := rfl
@[simp] theorem Device.setFrame_channels (d : Device) (f : FramePassage) : (d.setFrame f).channels = d.channels := rfl
@[simp] theorem Device.setFrame_speed (d : Device) (f : FramePassage) : (d.setFrame f).speed = d.speed := rfl
@[simp] theorem Device.setFrame_profile (d : Device) (f : FramePassage) : (d.setFrame f).profile = d.profile := rfl
@[simp] theorem Device.setFrame_zones (d : Device) (f : FramePassage) : (d.setFrame f).zones = d.zones := rfl
@[simp] theorem Device.setFrame_timers (d : Device) (f : FramePassage) : (d.setFrame f).timers = d.timers := rfl
@[simp] theorem Device.setFrame_terms (d : Device) (f : FramePassage) : (d.setFrame f).terms = d.terms := rfl
@[simp] theorem Device.setFrame_permit (d : Device) (f : FramePassage) : (d.setFrame f).permit = d.permit := rfl
@[simp] theorem Device.setFrame_monitor (d : Device) (f : FramePassage) : (d.setFrame f).monitor = d.monitor := rfl
@[simp] theorem Device.setFrame_actuators (d : Device) (f : FramePassage) : (d.setFrame f).actuators = d.actuators := rfl
@[simp] theorem Device.setFrame_capture (d : Device) (f : FramePassage) : (d.setFrame f).capture = d.capture := rfl
@[simp] theorem Device.setFrame_mailbox (d : Device) (f : FramePassage) : (d.setFrame f).mailbox = d.mailbox := rfl
@[simp] theorem Device.setFrame_events (d : Device) (f : FramePassage) : (d.setFrame f).events = d.events := rfl
@[simp] theorem Device.setFrame_choices (d : Device) (f : FramePassage) : (d.setFrame f).choices = d.choices := rfl
@[simp] theorem Device.setFrame_breakMet (d : Device) (f : FramePassage) : (d.setFrame f).breakMet = d.breakMet := rfl

/-! ## setEntry -/

@[simp] theorem Device.setEntry_lines (d : Device) (i : Fin 64) (e : Option SlotEntry) : (d.setEntry i e).lines = d.lines := rfl
@[simp] theorem Device.setEntry_port (d : Device) (i : Fin 64) (e : Option SlotEntry) : (d.setEntry i e).port = d.port := rfl
@[simp] theorem Device.setEntry_slotMap (d : Device) (i : Fin 64) (e : Option SlotEntry) : (d.setEntry i e).slotMap = { d.slotMap with entries := d.slotMap.entries.set i e } := rfl
@[simp] theorem Device.setEntry_channels (d : Device) (i : Fin 64) (e : Option SlotEntry) : (d.setEntry i e).channels = d.channels := rfl
@[simp] theorem Device.setEntry_speed (d : Device) (i : Fin 64) (e : Option SlotEntry) : (d.setEntry i e).speed = d.speed := rfl
@[simp] theorem Device.setEntry_profile (d : Device) (i : Fin 64) (e : Option SlotEntry) : (d.setEntry i e).profile = d.profile := rfl
@[simp] theorem Device.setEntry_zones (d : Device) (i : Fin 64) (e : Option SlotEntry) : (d.setEntry i e).zones = d.zones := rfl
@[simp] theorem Device.setEntry_timers (d : Device) (i : Fin 64) (e : Option SlotEntry) : (d.setEntry i e).timers = d.timers := rfl
@[simp] theorem Device.setEntry_terms (d : Device) (i : Fin 64) (e : Option SlotEntry) : (d.setEntry i e).terms = d.terms := rfl
@[simp] theorem Device.setEntry_permit (d : Device) (i : Fin 64) (e : Option SlotEntry) : (d.setEntry i e).permit = d.permit := rfl
@[simp] theorem Device.setEntry_monitor (d : Device) (i : Fin 64) (e : Option SlotEntry) : (d.setEntry i e).monitor = d.monitor := rfl
@[simp] theorem Device.setEntry_actuators (d : Device) (i : Fin 64) (e : Option SlotEntry) : (d.setEntry i e).actuators = d.actuators := rfl
@[simp] theorem Device.setEntry_capture (d : Device) (i : Fin 64) (e : Option SlotEntry) : (d.setEntry i e).capture = d.capture := rfl
@[simp] theorem Device.setEntry_mailbox (d : Device) (i : Fin 64) (e : Option SlotEntry) : (d.setEntry i e).mailbox = d.mailbox := rfl
@[simp] theorem Device.setEntry_events (d : Device) (i : Fin 64) (e : Option SlotEntry) : (d.setEntry i e).events = d.events := rfl
@[simp] theorem Device.setEntry_choices (d : Device) (i : Fin 64) (e : Option SlotEntry) : (d.setEntry i e).choices = d.choices := rfl
@[simp] theorem Device.setEntry_breakMet (d : Device) (i : Fin 64) (e : Option SlotEntry) : (d.setEntry i e).breakMet = d.breakMet := rfl

/-! ## raise -/

@[simp] theorem Device.raise_lines (d : Device) (k : EventKind) (n : Nat) (v : Word) : (d.raise k n v).lines = d.lines := rfl
@[simp] theorem Device.raise_port (d : Device) (k : EventKind) (n : Nat) (v : Word) : (d.raise k n v).port = d.port := rfl
@[simp] theorem Device.raise_slotMap (d : Device) (k : EventKind) (n : Nat) (v : Word) : (d.raise k n v).slotMap = d.slotMap := rfl
@[simp] theorem Device.raise_channels (d : Device) (k : EventKind) (n : Nat) (v : Word) : (d.raise k n v).channels = d.channels := rfl
@[simp] theorem Device.raise_speed (d : Device) (k : EventKind) (n : Nat) (v : Word) : (d.raise k n v).speed = d.speed := rfl
@[simp] theorem Device.raise_profile (d : Device) (k : EventKind) (n : Nat) (v : Word) : (d.raise k n v).profile = d.profile := rfl
@[simp] theorem Device.raise_zones (d : Device) (k : EventKind) (n : Nat) (v : Word) : (d.raise k n v).zones = d.zones := rfl
@[simp] theorem Device.raise_timers (d : Device) (k : EventKind) (n : Nat) (v : Word) : (d.raise k n v).timers = d.timers := rfl
@[simp] theorem Device.raise_terms (d : Device) (k : EventKind) (n : Nat) (v : Word) : (d.raise k n v).terms = d.terms := rfl
@[simp] theorem Device.raise_permit (d : Device) (k : EventKind) (n : Nat) (v : Word) : (d.raise k n v).permit = d.permit := rfl
@[simp] theorem Device.raise_monitor (d : Device) (k : EventKind) (n : Nat) (v : Word) : (d.raise k n v).monitor = d.monitor := rfl
@[simp] theorem Device.raise_actuators (d : Device) (k : EventKind) (n : Nat) (v : Word) : (d.raise k n v).actuators = d.actuators := rfl
@[simp] theorem Device.raise_capture (d : Device) (k : EventKind) (n : Nat) (v : Word) : (d.raise k n v).capture = d.capture := rfl
@[simp] theorem Device.raise_mailbox (d : Device) (k : EventKind) (n : Nat) (v : Word) : (d.raise k n v).mailbox = d.mailbox := rfl
@[simp] theorem Device.raise_events (d : Device) (k : EventKind) (n : Nat) (v : Word) : (d.raise k n v).events = d.events.offer { kind := k, source := BitVec.ofNat 8 n, stamp := d.port.cycleCount, value := v } := rfl
@[simp] theorem Device.raise_choices (d : Device) (k : EventKind) (n : Nat) (v : Word) : (d.raise k n v).choices = d.choices := rfl
@[simp] theorem Device.raise_breakMet (d : Device) (k : EventKind) (n : Nat) (v : Word) : (d.raise k n v).breakMet = d.breakMet := rfl

/-! ## setResult -/

@[simp] theorem Device.setResult_lines (d : Device) (rc : ResultCode) (tag code : Byte) (ws : List Word) : (d.setResult rc tag code ws).lines = d.lines := rfl
@[simp] theorem Device.setResult_port (d : Device) (rc : ResultCode) (tag code : Byte) (ws : List Word) : (d.setResult rc tag code ws).port = d.port := rfl
@[simp] theorem Device.setResult_slotMap (d : Device) (rc : ResultCode) (tag code : Byte) (ws : List Word) : (d.setResult rc tag code ws).slotMap = d.slotMap := rfl
@[simp] theorem Device.setResult_channels (d : Device) (rc : ResultCode) (tag code : Byte) (ws : List Word) : (d.setResult rc tag code ws).channels = d.channels := rfl
@[simp] theorem Device.setResult_speed (d : Device) (rc : ResultCode) (tag code : Byte) (ws : List Word) : (d.setResult rc tag code ws).speed = d.speed := rfl
@[simp] theorem Device.setResult_profile (d : Device) (rc : ResultCode) (tag code : Byte) (ws : List Word) : (d.setResult rc tag code ws).profile = d.profile := rfl
@[simp] theorem Device.setResult_zones (d : Device) (rc : ResultCode) (tag code : Byte) (ws : List Word) : (d.setResult rc tag code ws).zones = d.zones := rfl
@[simp] theorem Device.setResult_timers (d : Device) (rc : ResultCode) (tag code : Byte) (ws : List Word) : (d.setResult rc tag code ws).timers = d.timers := rfl
@[simp] theorem Device.setResult_terms (d : Device) (rc : ResultCode) (tag code : Byte) (ws : List Word) : (d.setResult rc tag code ws).terms = d.terms := rfl
@[simp] theorem Device.setResult_permit (d : Device) (rc : ResultCode) (tag code : Byte) (ws : List Word) : (d.setResult rc tag code ws).permit = d.permit := rfl
@[simp] theorem Device.setResult_monitor (d : Device) (rc : ResultCode) (tag code : Byte) (ws : List Word) : (d.setResult rc tag code ws).monitor = d.monitor := rfl
@[simp] theorem Device.setResult_actuators (d : Device) (rc : ResultCode) (tag code : Byte) (ws : List Word) : (d.setResult rc tag code ws).actuators = d.actuators := rfl
@[simp] theorem Device.setResult_capture (d : Device) (rc : ResultCode) (tag code : Byte) (ws : List Word) : (d.setResult rc tag code ws).capture = d.capture := rfl
@[simp] theorem Device.setResult_mailbox (d : Device) (rc : ResultCode) (tag code : Byte) (ws : List Word) : (d.setResult rc tag code ws).mailbox = { d.mailbox with
      executing := none, pending := some { code := rc, tag := tag, command := code, data := dataWords ws } } := rfl
@[simp] theorem Device.setResult_events (d : Device) (rc : ResultCode) (tag code : Byte) (ws : List Word) : (d.setResult rc tag code ws).events = d.events := rfl
@[simp] theorem Device.setResult_choices (d : Device) (rc : ResultCode) (tag code : Byte) (ws : List Word) : (d.setResult rc tag code ws).choices = d.choices := rfl
@[simp] theorem Device.setResult_breakMet (d : Device) (rc : ResultCode) (tag code : Byte) (ws : List Word) : (d.setResult rc tag code ws).breakMet = d.breakMet := rfl

/-! ## Reading a table after a write -/

/-- The record that was written reads as written. -/
@[simp] theorem Device.setChannel_read (d : Device) (c : Fin 32) (x : Channel) : (d.setChannel c x).channels[c] = x := by
  simp [Device.setChannel]

/-- Every other record reads as before. -/
theorem Device.setChannel_read_ne (d : Device) {c i : Fin 32} (x : Channel) (h : i ≠ c) :
    (d.setChannel c x).channels[i] = d.channels[i] := by
  have h2 : c.val ≠ i.val := fun e => h (Fin.ext e.symm)
  simp [Device.setChannel, Vector.getElem_set_ne, h2]

/-- Reading any record after a write. -/
theorem Device.setChannel_get (d : Device) (c i : Fin 32) (x : Channel) :
    (d.setChannel c x).channels[i] = if i = c then x else d.channels[i] := by
  by_cases h : i = c
  · subst h; simp
  · rw [if_neg h]; exact d.setChannel_read_ne x h

/-- The record that was written reads as written. -/
@[simp] theorem Device.setZone_read (d : Device) (z : Fin 12) (x : Zone) : (d.setZone z x).zones[z] = x := by
  simp [Device.setZone]

/-- Every other record reads as before. -/
theorem Device.setZone_read_ne (d : Device) {z i : Fin 12} (x : Zone) (h : i ≠ z) :
    (d.setZone z x).zones[i] = d.zones[i] := by
  have h2 : z.val ≠ i.val := fun e => h (Fin.ext e.symm)
  simp [Device.setZone, Vector.getElem_set_ne, h2]

/-- Reading any record after a write. -/
theorem Device.setZone_get (d : Device) (z i : Fin 12) (x : Zone) :
    (d.setZone z x).zones[i] = if i = z then x else d.zones[i] := by
  by_cases h : i = z
  · subst h; simp
  · rw [if_neg h]; exact d.setZone_read_ne x h

/-- The record that was written reads as written. -/
@[simp] theorem Device.setTimer_read (d : Device) (k : Fin 6) (x : Timer) : (d.setTimer k x).timers[k] = x := by
  simp [Device.setTimer]

/-- Every other record reads as before. -/
theorem Device.setTimer_read_ne (d : Device) {k i : Fin 6} (x : Timer) (h : i ≠ k) :
    (d.setTimer k x).timers[i] = d.timers[i] := by
  have h2 : k.val ≠ i.val := fun e => h (Fin.ext e.symm)
  simp [Device.setTimer, Vector.getElem_set_ne, h2]

/-- Reading any record after a write. -/
theorem Device.setTimer_get (d : Device) (k i : Fin 6) (x : Timer) :
    (d.setTimer k x).timers[i] = if i = k then x else d.timers[i] := by
  by_cases h : i = k
  · subst h; simp
  · rw [if_neg h]; exact d.setTimer_read_ne x h

/-- The record that was written reads as written. -/
@[simp] theorem Device.setTerm_read (d : Device) (j : Fin 8) (x : Term) : (d.setTerm j x).terms[j] = x := by
  simp [Device.setTerm]

/-- Every other record reads as before. -/
theorem Device.setTerm_read_ne (d : Device) {j i : Fin 8} (x : Term) (h : i ≠ j) :
    (d.setTerm j x).terms[i] = d.terms[i] := by
  have h2 : j.val ≠ i.val := fun e => h (Fin.ext e.symm)
  simp [Device.setTerm, Vector.getElem_set_ne, h2]

/-- Reading any record after a write. -/
theorem Device.setTerm_get (d : Device) (j i : Fin 8) (x : Term) :
    (d.setTerm j x).terms[i] = if i = j then x else d.terms[i] := by
  by_cases h : i = j
  · subst h; simp
  · rw [if_neg h]; exact d.setTerm_read_ne x h

/-- The record that was written reads as written. -/
@[simp] theorem Device.setActuator_read (d : Device) (a : Fin 16) (x : Actuator) : (d.setActuator a x).actuators[a] = x := by
  simp [Device.setActuator]

/-- Every other record reads as before. -/
theorem Device.setActuator_read_ne (d : Device) {a i : Fin 16} (x : Actuator) (h : i ≠ a) :
    (d.setActuator a x).actuators[i] = d.actuators[i] := by
  have h2 : a.val ≠ i.val := fun e => h (Fin.ext e.symm)
  simp [Device.setActuator, Vector.getElem_set_ne, h2]

/-- Reading any record after a write. -/
theorem Device.setActuator_get (d : Device) (a i : Fin 16) (x : Actuator) :
    (d.setActuator a x).actuators[i] = if i = a then x else d.actuators[i] := by
  by_cases h : i = a
  · subst h; simp
  · rw [if_neg h]; exact d.setActuator_read_ne x h

/-! ## forgetBreak -/

@[simp] theorem Device.forgetBreak_lines (d : Device) : d.forgetBreak.lines = d.lines := rfl
@[simp] theorem Device.forgetBreak_port (d : Device) : d.forgetBreak.port = d.port := rfl
@[simp] theorem Device.forgetBreak_slotMap (d : Device) : d.forgetBreak.slotMap = d.slotMap := rfl
@[simp] theorem Device.forgetBreak_channels (d : Device) : d.forgetBreak.channels = d.channels := rfl
@[simp] theorem Device.forgetBreak_speed (d : Device) : d.forgetBreak.speed = d.speed := rfl
@[simp] theorem Device.forgetBreak_profile (d : Device) : d.forgetBreak.profile = d.profile := rfl
@[simp] theorem Device.forgetBreak_zones (d : Device) : d.forgetBreak.zones = d.zones := rfl
@[simp] theorem Device.forgetBreak_timers (d : Device) : d.forgetBreak.timers = d.timers := rfl
@[simp] theorem Device.forgetBreak_terms (d : Device) : d.forgetBreak.terms = d.terms := rfl
@[simp] theorem Device.forgetBreak_permit (d : Device) : d.forgetBreak.permit = d.permit := rfl
@[simp] theorem Device.forgetBreak_monitor (d : Device) : d.forgetBreak.monitor = d.monitor := rfl
@[simp] theorem Device.forgetBreak_actuators (d : Device) : d.forgetBreak.actuators = d.actuators := rfl
@[simp] theorem Device.forgetBreak_capture (d : Device) : d.forgetBreak.capture = d.capture := rfl
@[simp] theorem Device.forgetBreak_mailbox (d : Device) : d.forgetBreak.mailbox = d.mailbox := rfl
@[simp] theorem Device.forgetBreak_events (d : Device) : d.forgetBreak.events = d.events := rfl
@[simp] theorem Device.forgetBreak_choices (d : Device) : d.forgetBreak.choices = d.choices := rfl
@[simp] theorem Device.forgetBreak_breakMet (d : Device) : d.forgetBreak.breakMet = 0 := rfl

/-! ## Events, choices, the permit and the settlement -/

@[simp] theorem Device.raiseAll_lines (d : Device) (n : Nat) (evs : List (EventKind × Word)) : (d.raiseAll n evs).lines = d.lines := by
  induction evs generalizing d with
  | nil => rfl
  | cons e es ih => exact ih _

@[simp] theorem Device.raiseAll_port (d : Device) (n : Nat) (evs : List (EventKind × Word)) : (d.raiseAll n evs).port = d.port := by
  induction evs generalizing d with
  | nil => rfl
  | cons e es ih => exact ih _

@[simp] theorem Device.raiseAll_slotMap (d : Device) (n : Nat) (evs : List (EventKind × Word)) : (d.raiseAll n evs).slotMap = d.slotMap := by
  induction evs generalizing d with
  | nil => rfl
  | cons e es ih => exact ih _

@[simp] theorem Device.raiseAll_channels (d : Device) (n : Nat) (evs : List (EventKind × Word)) : (d.raiseAll n evs).channels = d.channels := by
  induction evs generalizing d with
  | nil => rfl
  | cons e es ih => exact ih _

@[simp] theorem Device.raiseAll_speed (d : Device) (n : Nat) (evs : List (EventKind × Word)) : (d.raiseAll n evs).speed = d.speed := by
  induction evs generalizing d with
  | nil => rfl
  | cons e es ih => exact ih _

@[simp] theorem Device.raiseAll_profile (d : Device) (n : Nat) (evs : List (EventKind × Word)) : (d.raiseAll n evs).profile = d.profile := by
  induction evs generalizing d with
  | nil => rfl
  | cons e es ih => exact ih _

@[simp] theorem Device.raiseAll_zones (d : Device) (n : Nat) (evs : List (EventKind × Word)) : (d.raiseAll n evs).zones = d.zones := by
  induction evs generalizing d with
  | nil => rfl
  | cons e es ih => exact ih _

@[simp] theorem Device.raiseAll_timers (d : Device) (n : Nat) (evs : List (EventKind × Word)) : (d.raiseAll n evs).timers = d.timers := by
  induction evs generalizing d with
  | nil => rfl
  | cons e es ih => exact ih _

@[simp] theorem Device.raiseAll_terms (d : Device) (n : Nat) (evs : List (EventKind × Word)) : (d.raiseAll n evs).terms = d.terms := by
  induction evs generalizing d with
  | nil => rfl
  | cons e es ih => exact ih _

@[simp] theorem Device.raiseAll_permit (d : Device) (n : Nat) (evs : List (EventKind × Word)) : (d.raiseAll n evs).permit = d.permit := by
  induction evs generalizing d with
  | nil => rfl
  | cons e es ih => exact ih _

@[simp] theorem Device.raiseAll_monitor (d : Device) (n : Nat) (evs : List (EventKind × Word)) : (d.raiseAll n evs).monitor = d.monitor := by
  induction evs generalizing d with
  | nil => rfl
  | cons e es ih => exact ih _

@[simp] theorem Device.raiseAll_actuators (d : Device) (n : Nat) (evs : List (EventKind × Word)) : (d.raiseAll n evs).actuators = d.actuators := by
  induction evs generalizing d with
  | nil => rfl
  | cons e es ih => exact ih _

@[simp] theorem Device.raiseAll_capture (d : Device) (n : Nat) (evs : List (EventKind × Word)) : (d.raiseAll n evs).capture = d.capture := by
  induction evs generalizing d with
  | nil => rfl
  | cons e es ih => exact ih _

@[simp] theorem Device.raiseAll_mailbox (d : Device) (n : Nat) (evs : List (EventKind × Word)) : (d.raiseAll n evs).mailbox = d.mailbox := by
  induction evs generalizing d with
  | nil => rfl
  | cons e es ih => exact ih _

@[simp] theorem Device.raiseAll_choices (d : Device) (n : Nat) (evs : List (EventKind × Word)) : (d.raiseAll n evs).choices = d.choices := by
  induction evs generalizing d with
  | nil => rfl
  | cons e es ih => exact ih _

@[simp] theorem Device.raiseAll_breakMet (d : Device) (n : Nat) (evs : List (EventKind × Word)) : (d.raiseAll n evs).breakMet = d.breakMet := by
  induction evs generalizing d with
  | nil => rfl
  | cons e es ih => exact ih _

@[simp] theorem Device.choose_lines (d : Device) (n : Nat) : (d.choose n).2.lines = d.lines := by
  unfold Device.choose; split <;> rfl

@[simp] theorem Device.choose_port (d : Device) (n : Nat) : (d.choose n).2.port = d.port := by
  unfold Device.choose; split <;> rfl

@[simp] theorem Device.choose_slotMap (d : Device) (n : Nat) : (d.choose n).2.slotMap = d.slotMap := by
  unfold Device.choose; split <;> rfl

@[simp] theorem Device.choose_channels (d : Device) (n : Nat) : (d.choose n).2.channels = d.channels := by
  unfold Device.choose; split <;> rfl

@[simp] theorem Device.choose_speed (d : Device) (n : Nat) : (d.choose n).2.speed = d.speed := by
  unfold Device.choose; split <;> rfl

@[simp] theorem Device.choose_profile (d : Device) (n : Nat) : (d.choose n).2.profile = d.profile := by
  unfold Device.choose; split <;> rfl

@[simp] theorem Device.choose_zones (d : Device) (n : Nat) : (d.choose n).2.zones = d.zones := by
  unfold Device.choose; split <;> rfl

@[simp] theorem Device.choose_timers (d : Device) (n : Nat) : (d.choose n).2.timers = d.timers := by
  unfold Device.choose; split <;> rfl

@[simp] theorem Device.choose_terms (d : Device) (n : Nat) : (d.choose n).2.terms = d.terms := by
  unfold Device.choose; split <;> rfl

@[simp] theorem Device.choose_permit (d : Device) (n : Nat) : (d.choose n).2.permit = d.permit := by
  unfold Device.choose; split <;> rfl

@[simp] theorem Device.choose_monitor (d : Device) (n : Nat) : (d.choose n).2.monitor = d.monitor := by
  unfold Device.choose; split <;> rfl

@[simp] theorem Device.choose_actuators (d : Device) (n : Nat) : (d.choose n).2.actuators = d.actuators := by
  unfold Device.choose; split <;> rfl

@[simp] theorem Device.choose_capture (d : Device) (n : Nat) : (d.choose n).2.capture = d.capture := by
  unfold Device.choose; split <;> rfl

@[simp] theorem Device.choose_mailbox (d : Device) (n : Nat) : (d.choose n).2.mailbox = d.mailbox := by
  unfold Device.choose; split <;> rfl

@[simp] theorem Device.choose_events (d : Device) (n : Nat) : (d.choose n).2.events = d.events := by
  unfold Device.choose; split <;> rfl

@[simp] theorem Device.dropPermit_lines (d : Device) : d.dropPermit.lines = d.lines := by
  unfold Device.dropPermit; split <;> rfl

@[simp] theorem Device.dropPermit_port (d : Device) : d.dropPermit.port = d.port := by
  unfold Device.dropPermit; split <;> rfl

@[simp] theorem Device.dropPermit_slotMap (d : Device) : d.dropPermit.slotMap = d.slotMap := by
  unfold Device.dropPermit; split <;> rfl

@[simp] theorem Device.dropPermit_channels (d : Device) : d.dropPermit.channels = d.channels := by
  unfold Device.dropPermit; split <;> rfl

@[simp] theorem Device.dropPermit_speed (d : Device) : d.dropPermit.speed = d.speed := by
  unfold Device.dropPermit; split <;> rfl

@[simp] theorem Device.dropPermit_profile (d : Device) : d.dropPermit.profile = d.profile := by
  unfold Device.dropPermit; split <;> rfl

@[simp] theorem Device.dropPermit_zones (d : Device) : d.dropPermit.zones = d.zones := by
  unfold Device.dropPermit; split <;> rfl

@[simp] theorem Device.dropPermit_timers (d : Device) : d.dropPermit.timers = d.timers := by
  unfold Device.dropPermit; split <;> rfl

@[simp] theorem Device.dropPermit_terms (d : Device) : d.dropPermit.terms = d.terms := by
  unfold Device.dropPermit; split <;> rfl

@[simp] theorem Device.dropPermit_monitor (d : Device) : d.dropPermit.monitor = d.monitor := by
  unfold Device.dropPermit; split <;> rfl

@[simp] theorem Device.dropPermit_actuators (d : Device) : d.dropPermit.actuators = d.actuators := by
  unfold Device.dropPermit; split <;> rfl

@[simp] theorem Device.dropPermit_capture (d : Device) : d.dropPermit.capture = d.capture := by
  unfold Device.dropPermit; split <;> rfl

@[simp] theorem Device.dropPermit_mailbox (d : Device) : d.dropPermit.mailbox = d.mailbox := by
  unfold Device.dropPermit; split <;> rfl

@[simp] theorem Device.dropPermit_events (d : Device) : d.dropPermit.events = d.events := by
  unfold Device.dropPermit; split <;> rfl

@[simp] theorem Device.dropPermit_choices (d : Device) : d.dropPermit.choices = d.choices := by
  unfold Device.dropPermit; split <;> rfl

@[simp] theorem Device.dropPermit_breakMet (d : Device) : d.dropPermit.breakMet = d.breakMet := by
  unfold Device.dropPermit; split <;> rfl

@[simp] theorem Device.raiseOption_lines (d : Device) (e : Option (EventKind × Nat × Word)) : (d.raiseOption e).lines = d.lines := by
  cases e <;> rfl

@[simp] theorem Device.raiseOption_port (d : Device) (e : Option (EventKind × Nat × Word)) : (d.raiseOption e).port = d.port := by
  cases e <;> rfl

@[simp] theorem Device.raiseOption_slotMap (d : Device) (e : Option (EventKind × Nat × Word)) : (d.raiseOption e).slotMap = d.slotMap := by
  cases e <;> rfl

@[simp] theorem Device.raiseOption_channels (d : Device) (e : Option (EventKind × Nat × Word)) : (d.raiseOption e).channels = d.channels := by
  cases e <;> rfl

@[simp] theorem Device.raiseOption_speed (d : Device) (e : Option (EventKind × Nat × Word)) : (d.raiseOption e).speed = d.speed := by
  cases e <;> rfl

@[simp] theorem Device.raiseOption_profile (d : Device) (e : Option (EventKind × Nat × Word)) : (d.raiseOption e).profile = d.profile := by
  cases e <;> rfl

@[simp] theorem Device.raiseOption_zones (d : Device) (e : Option (EventKind × Nat × Word)) : (d.raiseOption e).zones = d.zones := by
  cases e <;> rfl

@[simp] theorem Device.raiseOption_timers (d : Device) (e : Option (EventKind × Nat × Word)) : (d.raiseOption e).timers = d.timers := by
  cases e <;> rfl

@[simp] theorem Device.raiseOption_terms (d : Device) (e : Option (EventKind × Nat × Word)) : (d.raiseOption e).terms = d.terms := by
  cases e <;> rfl

@[simp] theorem Device.raiseOption_permit (d : Device) (e : Option (EventKind × Nat × Word)) : (d.raiseOption e).permit = d.permit := by
  cases e <;> rfl

@[simp] theorem Device.raiseOption_monitor (d : Device) (e : Option (EventKind × Nat × Word)) : (d.raiseOption e).monitor = d.monitor := by
  cases e <;> rfl

@[simp] theorem Device.raiseOption_actuators (d : Device) (e : Option (EventKind × Nat × Word)) : (d.raiseOption e).actuators = d.actuators := by
  cases e <;> rfl

@[simp] theorem Device.raiseOption_capture (d : Device) (e : Option (EventKind × Nat × Word)) : (d.raiseOption e).capture = d.capture := by
  cases e <;> rfl

@[simp] theorem Device.raiseOption_mailbox (d : Device) (e : Option (EventKind × Nat × Word)) : (d.raiseOption e).mailbox = d.mailbox := by
  cases e <;> rfl

@[simp] theorem Device.raiseOption_choices (d : Device) (e : Option (EventKind × Nat × Word)) : (d.raiseOption e).choices = d.choices := by
  cases e <;> rfl

@[simp] theorem Device.raiseOption_breakMet (d : Device) (e : Option (EventKind × Nat × Word)) : (d.raiseOption e).breakMet = d.breakMet := by
  cases e <;> rfl

@[simp] theorem Device.raiseEither_lines (d : Device) (o : Option (EventKind × Nat × Word)) (e : EventKind × Nat × Word) :
    (d.raiseEither o e).lines = d.lines := by
  cases o <;> simp only [Device.raiseEither] <;> (try split) <;> simp

@[simp] theorem Device.raiseEither_port (d : Device) (o : Option (EventKind × Nat × Word)) (e : EventKind × Nat × Word) :
    (d.raiseEither o e).port = d.port := by
  cases o <;> simp only [Device.raiseEither] <;> (try split) <;> simp

@[simp] theorem Device.raiseEither_slotMap (d : Device) (o : Option (EventKind × Nat × Word)) (e : EventKind × Nat × Word) :
    (d.raiseEither o e).slotMap = d.slotMap := by
  cases o <;> simp only [Device.raiseEither] <;> (try split) <;> simp

@[simp] theorem Device.raiseEither_channels (d : Device) (o : Option (EventKind × Nat × Word)) (e : EventKind × Nat × Word) :
    (d.raiseEither o e).channels = d.channels := by
  cases o <;> simp only [Device.raiseEither] <;> (try split) <;> simp

@[simp] theorem Device.raiseEither_speed (d : Device) (o : Option (EventKind × Nat × Word)) (e : EventKind × Nat × Word) :
    (d.raiseEither o e).speed = d.speed := by
  cases o <;> simp only [Device.raiseEither] <;> (try split) <;> simp

@[simp] theorem Device.raiseEither_profile (d : Device) (o : Option (EventKind × Nat × Word)) (e : EventKind × Nat × Word) :
    (d.raiseEither o e).profile = d.profile := by
  cases o <;> simp only [Device.raiseEither] <;> (try split) <;> simp

@[simp] theorem Device.raiseEither_zones (d : Device) (o : Option (EventKind × Nat × Word)) (e : EventKind × Nat × Word) :
    (d.raiseEither o e).zones = d.zones := by
  cases o <;> simp only [Device.raiseEither] <;> (try split) <;> simp

@[simp] theorem Device.raiseEither_timers (d : Device) (o : Option (EventKind × Nat × Word)) (e : EventKind × Nat × Word) :
    (d.raiseEither o e).timers = d.timers := by
  cases o <;> simp only [Device.raiseEither] <;> (try split) <;> simp

@[simp] theorem Device.raiseEither_terms (d : Device) (o : Option (EventKind × Nat × Word)) (e : EventKind × Nat × Word) :
    (d.raiseEither o e).terms = d.terms := by
  cases o <;> simp only [Device.raiseEither] <;> (try split) <;> simp

@[simp] theorem Device.raiseEither_permit (d : Device) (o : Option (EventKind × Nat × Word)) (e : EventKind × Nat × Word) :
    (d.raiseEither o e).permit = d.permit := by
  cases o <;> simp only [Device.raiseEither] <;> (try split) <;> simp

@[simp] theorem Device.raiseEither_monitor (d : Device) (o : Option (EventKind × Nat × Word)) (e : EventKind × Nat × Word) :
    (d.raiseEither o e).monitor = d.monitor := by
  cases o <;> simp only [Device.raiseEither] <;> (try split) <;> simp

@[simp] theorem Device.raiseEither_actuators (d : Device) (o : Option (EventKind × Nat × Word)) (e : EventKind × Nat × Word) :
    (d.raiseEither o e).actuators = d.actuators := by
  cases o <;> simp only [Device.raiseEither] <;> (try split) <;> simp

@[simp] theorem Device.raiseEither_capture (d : Device) (o : Option (EventKind × Nat × Word)) (e : EventKind × Nat × Word) :
    (d.raiseEither o e).capture = d.capture := by
  cases o <;> simp only [Device.raiseEither] <;> (try split) <;> simp

@[simp] theorem Device.raiseEither_mailbox (d : Device) (o : Option (EventKind × Nat × Word)) (e : EventKind × Nat × Word) :
    (d.raiseEither o e).mailbox = d.mailbox := by
  cases o <;> simp only [Device.raiseEither] <;> (try split) <;> simp

@[simp] theorem Device.changeTerm_lines (d : Device) (j : Fin 8) (v : Bool) : (d.changeTerm j v).lines = d.lines := by
  unfold Device.changeTerm; split <;> simp

@[simp] theorem Device.changeTerm_port (d : Device) (j : Fin 8) (v : Bool) : (d.changeTerm j v).port = d.port := by
  unfold Device.changeTerm; split <;> simp

@[simp] theorem Device.changeTerm_slotMap (d : Device) (j : Fin 8) (v : Bool) : (d.changeTerm j v).slotMap = d.slotMap := by
  unfold Device.changeTerm; split <;> simp

@[simp] theorem Device.changeTerm_channels (d : Device) (j : Fin 8) (v : Bool) : (d.changeTerm j v).channels = d.channels := by
  unfold Device.changeTerm; split <;> simp

@[simp] theorem Device.changeTerm_speed (d : Device) (j : Fin 8) (v : Bool) : (d.changeTerm j v).speed = d.speed := by
  unfold Device.changeTerm; split <;> simp

@[simp] theorem Device.changeTerm_profile (d : Device) (j : Fin 8) (v : Bool) : (d.changeTerm j v).profile = d.profile := by
  unfold Device.changeTerm; split <;> simp

@[simp] theorem Device.changeTerm_zones (d : Device) (j : Fin 8) (v : Bool) : (d.changeTerm j v).zones = d.zones := by
  unfold Device.changeTerm; split <;> simp

@[simp] theorem Device.changeTerm_timers (d : Device) (j : Fin 8) (v : Bool) : (d.changeTerm j v).timers = d.timers := by
  unfold Device.changeTerm; split <;> simp

@[simp] theorem Device.changeTerm_permit (d : Device) (j : Fin 8) (v : Bool) : (d.changeTerm j v).permit = d.permit := by
  unfold Device.changeTerm; split <;> simp

@[simp] theorem Device.changeTerm_monitor (d : Device) (j : Fin 8) (v : Bool) : (d.changeTerm j v).monitor = d.monitor := by
  unfold Device.changeTerm; split <;> simp

@[simp] theorem Device.changeTerm_actuators (d : Device) (j : Fin 8) (v : Bool) : (d.changeTerm j v).actuators = d.actuators := by
  unfold Device.changeTerm; split <;> simp

@[simp] theorem Device.changeTerm_capture (d : Device) (j : Fin 8) (v : Bool) : (d.changeTerm j v).capture = d.capture := by
  unfold Device.changeTerm; split <;> simp

@[simp] theorem Device.changeTerm_mailbox (d : Device) (j : Fin 8) (v : Bool) : (d.changeTerm j v).mailbox = d.mailbox := by
  unfold Device.changeTerm; split <;> simp

@[simp] theorem Device.changeTerm_choices (d : Device) (j : Fin 8) (v : Bool) : (d.changeTerm j v).choices = d.choices := by
  unfold Device.changeTerm; split <;> simp

@[simp] theorem Device.changeTerm_breakMet (d : Device) (j : Fin 8) (v : Bool) : (d.changeTerm j v).breakMet = d.breakMet := by
  unfold Device.changeTerm; split <;> simp

/-- All that one term's examination can do: nothing, a deferral, or a change of its value. -/
theorem settleTerm_cases (d0 : Device) (p : Device × TermSet) (j : Fin 8) :
    settleTerm d0 p j = p
      ∨ (settleTerm d0 p j).1 = p.1.setTerm j { p.1.terms[j] with deferred := true } ∧ (settleTerm d0 p j).2 = p.2
      ∨ (settleTerm d0 p j).1 = p.1.changeTerm j (p.1.selected p.1.terms[j])
          ∧ (settleTerm d0 p j).2 = p.2 ||| TermSet.one j := by
  by_cases h1 : (p.1.terms[j].inputs.any fun c => d0.level c != p.1.level c) = true
  · by_cases h2 : p.1.selected p.1.terms[j] = p.1.terms[j].value
    · left; simp only [settleTerm, h1, h2, if_true]
    · by_cases h3 : p.2.getLsbD j.val = true
      · right; left; simp only [settleTerm, h1, h2, h3, if_true, if_false]; trivial
      · right; right; simp only [settleTerm, h1, h2, h3, if_true, if_false]; trivial
  · left; simp only [settleTerm, h1]; rfl

@[simp] theorem settleTerm_lines (d0 : Device) (p : Device × TermSet) (j : Fin 8) : (settleTerm d0 p j).1.lines = p.1.lines := by
  rcases settleTerm_cases d0 p j with h | ⟨h, -⟩ | ⟨h, -⟩ <;> rw [h]
  · exact Device.setTerm_lines _ _ _
  · exact Device.changeTerm_lines _ _ _

@[simp] theorem settleTerm_port (d0 : Device) (p : Device × TermSet) (j : Fin 8) : (settleTerm d0 p j).1.port = p.1.port := by
  rcases settleTerm_cases d0 p j with h | ⟨h, -⟩ | ⟨h, -⟩ <;> rw [h]
  · exact Device.setTerm_port _ _ _
  · exact Device.changeTerm_port _ _ _

@[simp] theorem settleTerm_slotMap (d0 : Device) (p : Device × TermSet) (j : Fin 8) : (settleTerm d0 p j).1.slotMap = p.1.slotMap := by
  rcases settleTerm_cases d0 p j with h | ⟨h, -⟩ | ⟨h, -⟩ <;> rw [h]
  · exact Device.setTerm_slotMap _ _ _
  · exact Device.changeTerm_slotMap _ _ _

@[simp] theorem settleTerm_channels (d0 : Device) (p : Device × TermSet) (j : Fin 8) : (settleTerm d0 p j).1.channels = p.1.channels := by
  rcases settleTerm_cases d0 p j with h | ⟨h, -⟩ | ⟨h, -⟩ <;> rw [h]
  · exact Device.setTerm_channels _ _ _
  · exact Device.changeTerm_channels _ _ _

@[simp] theorem settleTerm_speed (d0 : Device) (p : Device × TermSet) (j : Fin 8) : (settleTerm d0 p j).1.speed = p.1.speed := by
  rcases settleTerm_cases d0 p j with h | ⟨h, -⟩ | ⟨h, -⟩ <;> rw [h]
  · exact Device.setTerm_speed _ _ _
  · exact Device.changeTerm_speed _ _ _

@[simp] theorem settleTerm_profile (d0 : Device) (p : Device × TermSet) (j : Fin 8) : (settleTerm d0 p j).1.profile = p.1.profile := by
  rcases settleTerm_cases d0 p j with h | ⟨h, -⟩ | ⟨h, -⟩ <;> rw [h]
  · exact Device.setTerm_profile _ _ _
  · exact Device.changeTerm_profile _ _ _

@[simp] theorem settleTerm_zones (d0 : Device) (p : Device × TermSet) (j : Fin 8) : (settleTerm d0 p j).1.zones = p.1.zones := by
  rcases settleTerm_cases d0 p j with h | ⟨h, -⟩ | ⟨h, -⟩ <;> rw [h]
  · exact Device.setTerm_zones _ _ _
  · exact Device.changeTerm_zones _ _ _

@[simp] theorem settleTerm_timers (d0 : Device) (p : Device × TermSet) (j : Fin 8) : (settleTerm d0 p j).1.timers = p.1.timers := by
  rcases settleTerm_cases d0 p j with h | ⟨h, -⟩ | ⟨h, -⟩ <;> rw [h]
  · exact Device.setTerm_timers _ _ _
  · exact Device.changeTerm_timers _ _ _

@[simp] theorem settleTerm_permit (d0 : Device) (p : Device × TermSet) (j : Fin 8) : (settleTerm d0 p j).1.permit = p.1.permit := by
  rcases settleTerm_cases d0 p j with h | ⟨h, -⟩ | ⟨h, -⟩ <;> rw [h]
  · exact Device.setTerm_permit _ _ _
  · exact Device.changeTerm_permit _ _ _

@[simp] theorem settleTerm_monitor (d0 : Device) (p : Device × TermSet) (j : Fin 8) : (settleTerm d0 p j).1.monitor = p.1.monitor := by
  rcases settleTerm_cases d0 p j with h | ⟨h, -⟩ | ⟨h, -⟩ <;> rw [h]
  · exact Device.setTerm_monitor _ _ _
  · exact Device.changeTerm_monitor _ _ _

@[simp] theorem settleTerm_actuators (d0 : Device) (p : Device × TermSet) (j : Fin 8) : (settleTerm d0 p j).1.actuators = p.1.actuators := by
  rcases settleTerm_cases d0 p j with h | ⟨h, -⟩ | ⟨h, -⟩ <;> rw [h]
  · exact Device.setTerm_actuators _ _ _
  · exact Device.changeTerm_actuators _ _ _

@[simp] theorem settleTerm_capture (d0 : Device) (p : Device × TermSet) (j : Fin 8) : (settleTerm d0 p j).1.capture = p.1.capture := by
  rcases settleTerm_cases d0 p j with h | ⟨h, -⟩ | ⟨h, -⟩ <;> rw [h]
  · exact Device.setTerm_capture _ _ _
  · exact Device.changeTerm_capture _ _ _

@[simp] theorem settleTerm_mailbox (d0 : Device) (p : Device × TermSet) (j : Fin 8) : (settleTerm d0 p j).1.mailbox = p.1.mailbox := by
  rcases settleTerm_cases d0 p j with h | ⟨h, -⟩ | ⟨h, -⟩ <;> rw [h]
  · exact Device.setTerm_mailbox _ _ _
  · exact Device.changeTerm_mailbox _ _ _

@[simp] theorem settleTerm_choices (d0 : Device) (p : Device × TermSet) (j : Fin 8) : (settleTerm d0 p j).1.choices = p.1.choices := by
  rcases settleTerm_cases d0 p j with h | ⟨h, -⟩ | ⟨h, -⟩ <;> rw [h]
  · exact Device.setTerm_choices _ _ _
  · exact Device.changeTerm_choices _ _ _

@[simp] theorem settleTerm_breakMet (d0 : Device) (p : Device × TermSet) (j : Fin 8) : (settleTerm d0 p j).1.breakMet = p.1.breakMet := by
  rcases settleTerm_cases d0 p j with h | ⟨h, -⟩ | ⟨h, -⟩ <;> rw [h]
  · exact Device.setTerm_breakMet _ _ _
  · exact Device.changeTerm_breakMet _ _ _

theorem settleTerm_fold_keeps {α : Type} (f : Device → α) (h : ∀ d0 p j, f (settleTerm d0 p j).1 = f p.1) (d0 : Device)
    (js : List (Fin 8)) (p : Device × TermSet) : f (js.foldl (settleTerm d0) p).1 = f p.1 := by
  induction js generalizing p with
  | nil => rfl
  | cons j js ih => exact (ih _).trans (h d0 p j)

@[simp] theorem settle_lines (d0 d : Device) (m : TermSet) : (settle d0 d m).1.lines = d.lines := by
  have h := settleTerm_fold_keeps (fun d => d.lines) (fun d0 p j => settleTerm_lines d0 p j) d0 (List.finRange 8) (d, m)
  unfold settle; exact h

@[simp] theorem settle_port (d0 d : Device) (m : TermSet) : (settle d0 d m).1.port = d.port := by
  have h := settleTerm_fold_keeps (fun d => d.port) (fun d0 p j => settleTerm_port d0 p j) d0 (List.finRange 8) (d, m)
  unfold settle; exact h

@[simp] theorem settle_slotMap (d0 d : Device) (m : TermSet) : (settle d0 d m).1.slotMap = d.slotMap := by
  have h := settleTerm_fold_keeps (fun d => d.slotMap) (fun d0 p j => settleTerm_slotMap d0 p j) d0 (List.finRange 8) (d, m)
  unfold settle; exact h

@[simp] theorem settle_channels (d0 d : Device) (m : TermSet) : (settle d0 d m).1.channels = d.channels := by
  have h := settleTerm_fold_keeps (fun d => d.channels) (fun d0 p j => settleTerm_channels d0 p j) d0 (List.finRange 8) (d, m)
  unfold settle; exact h

@[simp] theorem settle_speed (d0 d : Device) (m : TermSet) : (settle d0 d m).1.speed = d.speed := by
  have h := settleTerm_fold_keeps (fun d => d.speed) (fun d0 p j => settleTerm_speed d0 p j) d0 (List.finRange 8) (d, m)
  unfold settle; exact h

@[simp] theorem settle_profile (d0 d : Device) (m : TermSet) : (settle d0 d m).1.profile = d.profile := by
  have h := settleTerm_fold_keeps (fun d => d.profile) (fun d0 p j => settleTerm_profile d0 p j) d0 (List.finRange 8) (d, m)
  unfold settle; exact h

@[simp] theorem settle_zones (d0 d : Device) (m : TermSet) : (settle d0 d m).1.zones = d.zones := by
  have h := settleTerm_fold_keeps (fun d => d.zones) (fun d0 p j => settleTerm_zones d0 p j) d0 (List.finRange 8) (d, m)
  unfold settle; exact h

@[simp] theorem settle_timers (d0 d : Device) (m : TermSet) : (settle d0 d m).1.timers = d.timers := by
  have h := settleTerm_fold_keeps (fun d => d.timers) (fun d0 p j => settleTerm_timers d0 p j) d0 (List.finRange 8) (d, m)
  unfold settle; exact h

@[simp] theorem settle_permit (d0 d : Device) (m : TermSet) : (settle d0 d m).1.permit = d.permit := by
  have h := settleTerm_fold_keeps (fun d => d.permit) (fun d0 p j => settleTerm_permit d0 p j) d0 (List.finRange 8) (d, m)
  unfold settle; exact h

@[simp] theorem settle_monitor (d0 d : Device) (m : TermSet) : (settle d0 d m).1.monitor = d.monitor := by
  have h := settleTerm_fold_keeps (fun d => d.monitor) (fun d0 p j => settleTerm_monitor d0 p j) d0 (List.finRange 8) (d, m)
  unfold settle; exact h

@[simp] theorem settle_actuators (d0 d : Device) (m : TermSet) : (settle d0 d m).1.actuators = d.actuators := by
  have h := settleTerm_fold_keeps (fun d => d.actuators) (fun d0 p j => settleTerm_actuators d0 p j) d0 (List.finRange 8) (d, m)
  unfold settle; exact h

@[simp] theorem settle_capture (d0 d : Device) (m : TermSet) : (settle d0 d m).1.capture = d.capture := by
  have h := settleTerm_fold_keeps (fun d => d.capture) (fun d0 p j => settleTerm_capture d0 p j) d0 (List.finRange 8) (d, m)
  unfold settle; exact h

@[simp] theorem settle_mailbox (d0 d : Device) (m : TermSet) : (settle d0 d m).1.mailbox = d.mailbox := by
  have h := settleTerm_fold_keeps (fun d => d.mailbox) (fun d0 p j => settleTerm_mailbox d0 p j) d0 (List.finRange 8) (d, m)
  unfold settle; exact h

@[simp] theorem settle_choices (d0 d : Device) (m : TermSet) : (settle d0 d m).1.choices = d.choices := by
  have h := settleTerm_fold_keeps (fun d => d.choices) (fun d0 p j => settleTerm_choices d0 p j) d0 (List.finRange 8) (d, m)
  unfold settle; exact h

@[simp] theorem settle_breakMet (d0 d : Device) (m : TermSet) : (settle d0 d m).1.breakMet = d.breakMet := by
  have h := settleTerm_fold_keeps (fun d => d.breakMet) (fun d0 p j => settleTerm_breakMet d0 p j) d0 (List.finRange 8) (d, m)
  unfold settle; exact h

@[simp] theorem settleAtReset_lines (d : Device) : (settleAtReset d).lines = d.lines := by
  unfold settleAtReset
  induction List.finRange 8 generalizing d with
  | nil => rfl
  | cons j js ih => exact ih _

@[simp] theorem settleAtReset_port (d : Device) : (settleAtReset d).port = d.port := by
  unfold settleAtReset
  induction List.finRange 8 generalizing d with
  | nil => rfl
  | cons j js ih => exact ih _

@[simp] theorem settleAtReset_slotMap (d : Device) : (settleAtReset d).slotMap = d.slotMap := by
  unfold settleAtReset
  induction List.finRange 8 generalizing d with
  | nil => rfl
  | cons j js ih => exact ih _

@[simp] theorem settleAtReset_channels (d : Device) : (settleAtReset d).channels = d.channels := by
  unfold settleAtReset
  induction List.finRange 8 generalizing d with
  | nil => rfl
  | cons j js ih => exact ih _

@[simp] theorem settleAtReset_speed (d : Device) : (settleAtReset d).speed = d.speed := by
  unfold settleAtReset
  induction List.finRange 8 generalizing d with
  | nil => rfl
  | cons j js ih => exact ih _

@[simp] theorem settleAtReset_profile (d : Device) : (settleAtReset d).profile = d.profile := by
  unfold settleAtReset
  induction List.finRange 8 generalizing d with
  | nil => rfl
  | cons j js ih => exact ih _

@[simp] theorem settleAtReset_zones (d : Device) : (settleAtReset d).zones = d.zones := by
  unfold settleAtReset
  induction List.finRange 8 generalizing d with
  | nil => rfl
  | cons j js ih => exact ih _

@[simp] theorem settleAtReset_timers (d : Device) : (settleAtReset d).timers = d.timers := by
  unfold settleAtReset
  induction List.finRange 8 generalizing d with
  | nil => rfl
  | cons j js ih => exact ih _

@[simp] theorem settleAtReset_permit (d : Device) : (settleAtReset d).permit = d.permit := by
  unfold settleAtReset
  induction List.finRange 8 generalizing d with
  | nil => rfl
  | cons j js ih => exact ih _

@[simp] theorem settleAtReset_monitor (d : Device) : (settleAtReset d).monitor = d.monitor := by
  unfold settleAtReset
  induction List.finRange 8 generalizing d with
  | nil => rfl
  | cons j js ih => exact ih _

@[simp] theorem settleAtReset_actuators (d : Device) : (settleAtReset d).actuators = d.actuators := by
  unfold settleAtReset
  induction List.finRange 8 generalizing d with
  | nil => rfl
  | cons j js ih => exact ih _

@[simp] theorem settleAtReset_capture (d : Device) : (settleAtReset d).capture = d.capture := by
  unfold settleAtReset
  induction List.finRange 8 generalizing d with
  | nil => rfl
  | cons j js ih => exact ih _

@[simp] theorem settleAtReset_mailbox (d : Device) : (settleAtReset d).mailbox = d.mailbox := by
  unfold settleAtReset
  induction List.finRange 8 generalizing d with
  | nil => rfl
  | cons j js ih => exact ih _

@[simp] theorem settleAtReset_events (d : Device) : (settleAtReset d).events = d.events := by
  unfold settleAtReset
  induction List.finRange 8 generalizing d with
  | nil => rfl
  | cons j js ih => exact ih _

@[simp] theorem settleAtReset_choices (d : Device) : (settleAtReset d).choices = d.choices := by
  unfold settleAtReset
  induction List.finRange 8 generalizing d with
  | nil => rfl
  | cons j js ih => exact ih _

@[simp] theorem settleAtReset_breakMet (d : Device) : (settleAtReset d).breakMet = d.breakMet := by
  unfold settleAtReset
  induction List.finRange 8 generalizing d with
  | nil => rfl
  | cons j js ih => exact ih _

end Sys2Proof.Machine
end

