-- ==== Sys2Proof/Laws/Cascade.lean ====
section
/-! SUPPORT. What following events to their end can do: what `pickNext` answers, and one induction principle each for `drain`, `runEffect`
and `runRoots`, so that an invariant is shown once for a single event and cited for whole cascades. -/

namespace Sys2Proof.Machine

/-- Every head of a block waits. -/
theorem mem_of_mem_blockHeads {xs : List Item} {x : Item} (h : x ∈ blockHeads xs) : x ∈ xs := by
  obtain ⟨b, -, hb⟩ := List.mem_filterMap.mp h
  exact List.mem_of_find?_eq_some hb

/-- Every block with a waiting event has a head. -/
theorem exists_blockHead {xs : List Item} {x : Item} (h : x ∈ xs) : ∃ y ∈ blockHeads xs, y.job.block = x.job.block := by
  have hs : (xs.find? fun y => y.job.block == x.job.block).isSome = true := List.find?_isSome.mpr ⟨x, h, by simp⟩
  obtain ⟨y, hy⟩ := Option.isSome_iff_exists.mp hs
  exact ⟨y, List.mem_filterMap.mpr ⟨x.job.block, List.mem_eraseDups.mpr (List.mem_map_of_mem h), hy⟩, by simpa using List.find?_some hy⟩

/-- An entry of a list, or the default. -/
theorem getD_cases (xs : List Item) (n : Nat) (x : Item) : xs.getD n x = x ∨ xs.getD n x ∈ xs := by
  rw [List.getD_eq_getElem?_getD]
  rcases Option.eq_none_or_eq_some xs[n]? with h | ⟨y, h⟩
  · rw [h]; exact Or.inl rfl
  · rw [h]; exact Or.inr (List.mem_of_getElem? h)

/-- The first entry that passes a test, and the others. -/
theorem perm_eraseP {p : Item → Bool} {xs : List Item} {x : Item} (h : xs.find? p = some x) : xs.Perm (x :: xs.eraseP p) := by
  induction xs with
  | nil => cases h
  | cons y ys ih =>
    by_cases hy : p y = true
    · rw [List.find?_cons_of_pos hy] at h
      cases h
      rw [List.eraseP_cons_of_pos hy]
    · rw [List.find?_cons_of_neg hy] at h
      rw [List.eraseP_cons_of_neg hy]
      exact ((ih h).cons y).trans (List.Perm.swap _ _ _)

/-- All that taking one waiting event can do: it takes an event that waits, leaves waiting events, and changes at most the choices. -/
theorem pickNext_cases {c : Cascades} {x : Item} {rest : List Item} {d1 : Device}
    (h : pickNext c = some (x, rest, d1)) :
    x ∈ c.items ∧ (∀ y ∈ rest, y ∈ c.items) ∧ (d1 = c.dev ∨ ∃ n, d1 = (c.dev.choose n).2) := by
  obtain ⟨d, xs, ms⟩ := c
  unfold pickNext at h
  dsimp only at h ⊢
  split at h
  · cases h
  · rename_i y ys
    split at h
    · rename_i z hz
      simp only [Option.some.injEq, Prod.mk.injEq] at h
      obtain ⟨rfl, rfl, rfl⟩ := h
      exact ⟨List.mem_of_find?_eq_some hz, fun y hy => List.mem_of_mem_eraseP hy, Or.inl rfl⟩
    · split at h
      · simp only [Option.some.injEq, Prod.mk.injEq] at h
        obtain ⟨rfl, rfl, rfl⟩ := h
        exact ⟨List.mem_cons_self, fun y hy => List.mem_cons_of_mem _ hy, Or.inl rfl⟩
      · simp only [Option.some.injEq, Prod.mk.injEq] at h
        obtain ⟨rfl, rfl, rfl⟩ := h
        refine ⟨?_, fun y hy => List.mem_of_mem_erase hy, ?_⟩
        · rcases getD_cases ((blockHeads (y :: ys)).filter fun x => !Cascades.mustWait ⟨d, y :: ys, ms⟩ x) _ y with hg | hg
          · rw [hg]; exact List.mem_cons_self
          · exact mem_of_mem_blockHeads (List.mem_filter.mp hg).1
        · split
          · exact Or.inl rfl
          · exact Or.inr ⟨_, rfl⟩

/-- The orders that the rules fix: an event that is neither inert nor one of quiet ones is taken only where it need wait for no other, unless
every head of a block must wait for another event. -/
theorem pickNext_ordered {c : Cascades} {x : Item} {rest : List Item} {d1 : Device}
    (h : pickNext c = some (x, rest, d1)) :
    x.job.inert c.dev = true ∨ (∀ y ∈ c.items, y.job.quiet c.dev = true) ∨ c.mustWait x = false
      ∨ ∀ y ∈ blockHeads c.items, c.mustWait y = true := by
  obtain ⟨d, xs, ms⟩ := c
  unfold pickNext at h
  dsimp only at h ⊢
  split at h
  · cases h
  · rename_i y ys
    split at h
    · rename_i z hz
      simp only [Option.some.injEq, Prod.mk.injEq] at h
      obtain ⟨rfl, -, -⟩ := h
      exact Or.inl (by simpa using List.find?_some hz)
    · split at h
      · rename_i hq
        exact Or.inr (Or.inl (List.all_eq_true.mp hq))
      · simp only [Option.some.injEq, Prod.mk.injEq] at h
        obtain ⟨rfl, -, -⟩ := h
        refine Or.inr (Or.inr ?_)
        generalize hr : ((blockHeads (y :: ys)).filter fun z => !Cascades.mustWait ⟨d, y :: ys, ms⟩ z) = ready
        cases ready with
        | nil =>
          right
          intro z hz
          have := List.filter_eq_nil_iff.mp hr z hz
          simpa using this
        | cons r rs =>
          left
          have hmem : ∀ n, n < (r :: rs).length → (r :: rs).getD n y ∈ r :: rs := fun n hn => by
            rw [List.getD_eq_getElem?_getD, List.getElem?_eq_getElem hn]
            exact List.getElem_mem hn
          have hlt : (if (r :: rs).length ≤ 1 then (0, d) else d.choose (r :: rs).length).1 < (r :: rs).length := by
            split
            · exact Nat.succ_pos _
            · unfold Device.choose
              split <;> exact Nat.mod_lt _ (Nat.succ_pos _)
          have hz := hmem _ hlt
          rw [← hr] at hz
          have := (List.mem_filter.mp hz).2
          rw [hr] at this
          simpa using this

/-- The event taken and those that wait on are those that waited. -/
theorem pickNext_perm {c : Cascades} {x : Item} {rest : List Item} {d1 : Device}
    (h : pickNext c = some (x, rest, d1)) : (x :: rest).Perm c.items := by
  obtain ⟨d, xs, ms⟩ := c
  unfold pickNext at h
  dsimp only at h ⊢
  split at h
  · cases h
  · rename_i y ys
    split at h
    · rename_i z hz
      simp only [Option.some.injEq, Prod.mk.injEq] at h
      obtain ⟨rfl, rfl, rfl⟩ := h
      exact (perm_eraseP hz).symm
    · split at h
      · simp only [Option.some.injEq, Prod.mk.injEq] at h
        obtain ⟨rfl, rfl, rfl⟩ := h
        exact List.Perm.refl _
      · simp only [Option.some.injEq, Prod.mk.injEq] at h
        obtain ⟨rfl, rfl, rfl⟩ := h
        refine (List.perm_cons_erase ?_).symm
        rcases getD_cases ((blockHeads (y :: ys)).filter fun x => !Cascades.mustWait ⟨d, y :: ys, ms⟩ x) _ y with hg | hg
        · rw [hg]; exact List.mem_cons_self
        · exact mem_of_mem_blockHeads (List.mem_filter.mp hg).1

/-- No event waits exactly where `pickNext` answers none. -/
theorem pickNext_none {c : Cascades} (h : pickNext c = none) : c.items = [] := by
  obtain ⟨d, xs, ms⟩ := c
  unfold pickNext at h
  dsimp only at h ⊢
  split at h
  · rfl
  · split at h
    · cases h
    · split at h <;> cases h

/-- A single waiting event is taken without a choice. -/
theorem pickNext_single (d : Device) (x : Item) (ms : List TermSet) : pickNext { dev := d, items := [x], masks := ms } = some (x, [], d) := by
  unfold pickNext
  by_cases hi : x.job.inert d
  · simp [hi]
  · by_cases hq : x.job.quiet d
    · simp [hi, hq]
    · generalize hw : Cascades.mustWait { dev := d, items := [x], masks := ms } = w
      have hh : blockHeads [x] = [x] := by simp [blockHeads, List.eraseDups_cons]
      simp only [List.find?_cons, hi, List.find?_nil, List.all_cons, hq, List.all_nil, Bool.false_and, Bool.false_eq_true, if_false, hh]
      by_cases hp : w x
      · simp [hp]
      · simp [hp]

/-- R138: a rise of the hard level that waits is one that the event it follows from has brought about. -/
theorem Cascades.eventRaisesHard_of_mem {c : Cascades} {soft hard : Item} (hm : hard ∈ c.items) (ho : hard.origin = soft.origin)
    (hj : hard.job.isHardRise = true) : c.eventRaisesHard soft = true := by
  unfold Cascades.eventRaisesHard
  have hown : hard ∈ c.items.filter fun y => y.origin == soft.origin := List.mem_filter.mpr ⟨hm, by simp [ho]⟩
  have hfuel : 0 < Config.cascadeFuel := Nat.pow_pos (by omega)
  obtain ⟨n, hn⟩ := Nat.exists_eq_succ_of_ne_zero (Nat.ne_of_gt (Nat.mul_pos hfuel (List.length_pos_of_mem hown)))
  dsimp only
  rw [hn]
  exact Bool.or_eq_true_iff.mpr (Or.inl (List.any_eq_true.mpr ⟨hard, hown, hj⟩))

/-- R138: a rise of the soft level waits exactly where an order of the blocks has it wait, or where its event raises the hard level too. -/
theorem Cascades.mustWait_softRise (c : Cascades) (x : Item) (n : Nat) (h : x.job = .softRise n) :
    c.mustWait x = (x.job.mustWait c.dev (c.items.map Item.job) || c.eventRaisesHard x) := by
  simp [Cascades.mustWait, h, Job.isSoftRise]

/-- R138: no other event waits for a rise of the hard level. -/
theorem Cascades.mustWait_of_not_softRise (c : Cascades) (x : Item) (h : x.job.isSoftRise = false) :
    c.mustWait x = x.job.mustWait c.dev (c.items.map Item.job) := by
  simp [Cascades.mustWait, h]

/-- The only field that a choice changes. -/
theorem Device.choose_dev (d : Device) (n : Nat) : ∃ c, (d.choose n).2 = { d with choices := c } := by
  unfold Device.choose; split <;> exact ⟨_, rfl⟩

/-- All that the drop of the permit can do. -/
theorem Device.dropPermit_cases (d : Device) :
    (d.dropPermit = d ∧ d.PermitSafe)
      ∨ (d.permit = .asserted ∧ d.permitConditions = false ∧ d.dropPermit = { d with permit := .dropped }) := by
  unfold Device.dropPermit
  by_cases h : d.permitFails = true
  · right
    rw [if_pos h]
    simp only [Device.permitFails, Bool.and_eq_true, beq_iff_eq, Bool.not_eq_true'] at h
    exact ⟨h.1, h.2, rfl⟩
  · left
    rw [if_neg h]
    refine ⟨rfl, fun hp => ?_⟩
    simpa [Device.permitFails, hp] using h

/-- All that a settled change can do to the device: the terms settle; the permit then stands or drops; and where it drops, PERMIT_DROPPED is
still to be raised, or has been raised among the terms' events. -/
theorem settleAndDrop_cases (d0 d : Device) (m : TermSet) :
    let d1 := (settle d0 d m).1
    let s := settleAndDrop d0 d m
    (s.dev = d1 ∧ s.permit = [] ∧ d1.PermitSafe)
      ∨ (d1.permitFails = true ∧ ∃ o, s.dev = { d1 with permit := .dropped, choices := o }
          ∧ s.permit = [.permitDropped d1.permitDrop.1 d1.permitDrop.2])
      ∨ (d1.permitFails = true ∧ s.permit = [] ∧ ∃ o n, s.dev = d0.dropAmongTerms d { d1 with choices := o } n
          ∧ n < (termEvents d0 d1).length) := by
  dsimp only
  unfold settleAndDrop
  dsimp only
  generalize (settle d0 d m).1 = d1
  by_cases hf : d1.permitFails = true
  · right
    by_cases hn : (termEvents d0 d1).length = 0
    · left
      refine ⟨hf, d1.choices, ?_⟩
      simp [hf, hn, Device.dropPermit, permitJobs]
    · obtain ⟨o, ho⟩ := Device.choose_dev d1 ((termEvents d0 d1).length + 1)
      have hr : (if (d1.permitFails && (termEvents d0 d1).length != 0) = true then d1.choose ((termEvents d0 d1).length + 1)
          else ((termEvents d0 d1).length, d1)) = d1.choose ((termEvents d0 d1).length + 1) := by simp [hf, hn]
      rw [hr, ho]
      split
      · rename_i h
        exact Or.inr ⟨hf, rfl, o, _, rfl, h⟩
      · refine Or.inl ⟨hf, o, ?_, ?_⟩
        · show Device.dropPermit _ = _
          unfold Device.dropPermit
          rw [if_pos (show Device.permitFails { d1 with choices := o } = true from hf)]
        · show permitJobs _ = _
          unfold permitJobs
          rw [if_pos (show Device.permitFails { d1 with choices := o } = true from hf)]
          rfl
  · left
    have hp : d1.dropPermit = d1 := by unfold Device.dropPermit; rw [if_neg hf]
    refine ⟨by simp [hf, hp], by simp [hf, permitJobs], fun ha => ?_⟩
    simpa [Device.permitFails, ha] using hf

/-- The device that one effect leaves, once the terms have settled and the permit has dropped where it must. -/
def settled (d0 : Device) (e : Effect) (changed : TermSet) : Device := (settleAndDrop d0 e.dev changed).dev

/-- PERMIT_DROPPED, where the effect leaves it to be raised. -/
def leftToRaise (d0 : Device) (e : Effect) (changed : TermSet) : List Job := (settleAndDrop d0 e.dev changed).permit

/-- At most PERMIT_DROPPED is left to raise. -/
theorem mem_leftToRaise {d0 : Device} {e : Effect} {m : TermSet} {j : Job} (h : j ∈ leftToRaise d0 e m) :
    ∃ source reason, leftToRaise d0 e m = [.permitDropped source reason] ∧ j = .permitDropped source reason := by
  unfold leftToRaise at *
  rcases settleAndDrop_cases d0 e.dev m with ⟨-, hp, -⟩ | ⟨-, o, -, hp⟩ | ⟨-, hp, -⟩
  · rw [hp] at h; cases h
  · rw [hp] at h; exact ⟨_, _, hp, List.mem_singleton.mp h⟩
  · rw [hp] at h; cases h

/-- The events handed on other than through terms are those jobs. -/
theorem mem_directItems {origin cascade fresh life : Nat} {b : Bool} {js : List Job} {it : Item} (h : it ∈ directItems origin cascade fresh life b js) :
    it.job ∈ js ∧ it.life = life := by
  unfold directItems at h
  split at h
  · obtain ⟨j, hj, rfl⟩ := List.mem_map.mp h
    exact ⟨hj, rfl⟩
  · obtain ⟨p, hp, rfl⟩ := List.mem_map.mp h
    obtain ⟨-, -, h⟩ := List.mem_zipIdx hp
    refine ⟨?_, rfl⟩
    show p.1 ∈ js
    rw [h]
    exact List.getElem_mem _

theorem length_directItems (origin cascade fresh life : Nat) (b : Bool) (js : List Job) :
    (directItems origin cascade fresh life b js).length = js.length := by
  unfold directItems; split <;> simp

/-- The events that come together are those jobs. -/
theorem mem_rootItems {js : List Job} {it : Item} (h : it ∈ rootItems js) : it.job ∈ js ∧ it.life = Config.generations := by
  obtain ⟨p, hp, rfl⟩ := List.mem_map.mp h
  exact ⟨List.fst_mem_of_mem_zipIdx hp, rfl⟩

theorem length_rootItems (js : List Job) : (rootItems js).length = js.length := by simp [rootItems]

/-- The events handed on through terms are those jobs. -/
theorem mem_termItems {origin cascade life : Nat} {js : List Job} {it : Item} (h : it ∈ termItems origin cascade life js) :
    it.job ∈ js ∧ it.life = life := by
  obtain ⟨j, hj, rfl⟩ := List.mem_map.mp h
  exact ⟨hj, rfl⟩

theorem length_termItems (origin cascade life : Nat) (js : List Job) : (termItems origin cascade life js).length = js.length := List.length_map _

/-- What an effect hands on: its own jobs, the permit's event and the reactions. -/
def handedOn (d0 : Device) (e : Effect) (changed : TermSet) : List Job :=
  e.next ++ directReactions d0 (settled d0 e changed) ++ leftToRaise d0 e changed
    ++ termReactions d0 (settled d0 e changed)

/-- All that one effect can do within the waiting cascades: the device settles, and what the effect hands on joins, each event with one
generation less to follow it. -/
theorem Cascades.take_cases (c : Cascades) (origin id life : Nat) (b : Bool) (d0 : Device) (e : Effect) :
    ∃ m, (c.take origin id life b d0 e).dev = settled d0 e m
      ∧ ∃ new : List Item, (c.take origin id life b d0 e).items = c.items ++ new ∧ new.length ≤ (handedOn d0 e m).length
        ∧ (∀ it ∈ new, it.job ∈ handedOn d0 e m ∧ it.life + 1 = life)
        ∧ (life ≠ 0 → ∀ j ∈ handedOn d0 e m, ∃ it ∈ new, it.job = j) := by
  refine ⟨c.masks.getD id 0 ||| (if e.counts then changedTerms d0 e.dev else 0), ?_⟩
  simp only [Cascades.take, handedOn, settled, leftToRaise]
  generalize settleAndDrop d0 e.dev (c.masks.getD id 0 ||| (if e.counts then changedTerms d0 e.dev else 0)) = s
  cases life with
  | zero => exact ⟨rfl, [], by simp, by simp, by simp, fun h => absurd rfl h⟩
  | succ n =>
    refine ⟨rfl, _, List.append_assoc _ _ _, ?_, ?_, ?_⟩
    · simp only [List.length_append, length_directItems, length_termItems]
      omega
    · intro it hit
      rcases List.mem_append.mp hit with h | h
      · have h := mem_directItems h
        exact ⟨List.mem_append_left _ (List.mem_append_left _ h.1), by rw [h.2]⟩
      · have h := mem_termItems h
        rw [List.append_assoc (e.next ++ _)]
        exact ⟨List.mem_append_right _ h.1, by rw [h.2]⟩
    · intro _ j hj
      rw [List.append_assoc (e.next ++ _)] at hj
      rcases List.mem_append.mp hj with h | h
      · cases b with
        | true =>
          exact ⟨{ origin := origin, cascade := id, byTerm := true, life := n, job := j }, List.mem_append_left _ (List.mem_map.mpr ⟨j, h, rfl⟩), rfl⟩
        | false =>
          obtain ⟨i, hi, hij⟩ := List.getElem_of_mem h
          refine ⟨{ origin := origin, cascade := i + (c.masks.set id s.mask).length, byTerm := false, life := n, job := j },
            List.mem_append_left _ (List.mem_map.mpr ⟨(j, i + (c.masks.set id s.mask).length), ?_, rfl⟩), rfl⟩
          rw [List.mem_iff_getElem]
          exact ⟨i, by simpa using hi, by simp [List.getElem_zipIdx, hij, Nat.add_comm]⟩
      · exact ⟨_, List.mem_append_right _ (List.mem_map_of_mem h), rfl⟩

/-- One event: the device before it keeps `P`, the event is one of `J`; afterwards `P` holds and what it hands on is of `J` again. -/
structure KeptByEvent (P : Device → Prop) (J : Job → Prop) : Prop where
  choose : ∀ d n, P d → P (d.choose n).2
  act : ∀ ws d j m, P d → J j → P (settled d (act ws d j) m)
  handsOn : ∀ ws d j m, P d → J j → ∀ x ∈ handedOn d (Machine.act ws d j) m, J x

/-- All that taking one event can do: the command acts alone; any other event settles and hands on. -/
theorem Cascades.next_cases (c : Cascades) (command : Device → Device) (it : Item) (rest : List Item) (d : Device) :
    (it.job = .command ∧ (c.next command it rest d).dev = command d ∧ (c.next command it rest d).items = rest)
      ∨ (it.job ≠ .command ∧ ∃ m, (c.next command it rest d).dev = settled d (act (rest.map Item.job) d it.job) m
          ∧ ∃ new : List Item, (c.next command it rest d).items = rest ++ new
            ∧ new.length ≤ (handedOn d (act (rest.map Item.job) d it.job) m).length
            ∧ (∀ x ∈ new, x.job ∈ handedOn d (act (rest.map Item.job) d it.job) m ∧ x.life + 1 = it.life)
            ∧ (it.life ≠ 0 → ∀ j ∈ handedOn d (act (rest.map Item.job) d it.job) m, ∃ x ∈ new, x.job = j)) := by
  unfold Cascades.next
  by_cases h : it.job = .command
  · exact Or.inl ⟨h, by rw [if_pos h], by rw [if_pos h]⟩
  · rw [if_neg h]
    exact Or.inr ⟨h, Cascades.take_cases _ _ _ _ _ _ _⟩

/-- What every event keeps, and the command, is kept until none waits. -/
theorem drain_keeps {P : Device → Prop} {J : Job → Prop} {command : Device → Device} (k : KeptByEvent P J)
    (hc : ∀ d, P d → P (command d)) (n : Nat) (c : Cascades) (hp : P c.dev) (hj : ∀ it ∈ c.items, J it.job) :
    P (drain command n c) := by
  induction n generalizing c with
  | zero => exact hp
  | succ n ih =>
    unfold drain
    split
    · exact hp
    · rename_i it rest d h
      obtain ⟨hit, hrest, hd⟩ := pickNext_cases h
      have hpd : P d := by
        rcases hd with rfl | ⟨m, rfl⟩
        · exact hp
        · exact k.choose _ _ hp
      rcases Cascades.next_cases c command it rest d with ⟨-, hdev, hitems⟩ | ⟨-, m, hdev, new, hitems, -, hnew, -⟩
      · exact ih _ (hdev ▸ hc _ hpd) fun x hx => hj x (hrest x (hitems ▸ hx))
      · refine ih _ (hdev ▸ k.act _ _ _ m hpd (hj it hit)) fun x hx => ?_
        rw [hitems] at hx
        rcases List.mem_append.mp hx with h | h
        · exact hj x (hrest x h)
        · exact k.handsOn _ _ _ m hpd (hj it hit) _ (hnew x h).1

/-- An effect followed to its end: `P` after the effect itself, and the events that it starts are of `J`. -/
theorem Device.runEffect_keeps {P : Device → Prop} {J : Job → Prop} (k : KeptByEvent P J) (d : Device) (e : Effect)
    (hp : ∀ m, P (settled d e m)) (hn : ∀ m, ∀ x ∈ handedOn d e m, J x) : P (d.runEffect e) := by
  unfold Device.runEffect
  obtain ⟨m, hm, new, hitems, -, hnew, -⟩ :=
    Cascades.take_cases ({ dev := d, items := [], masks := [0] } : Cascades) 0 0 Config.generations false d e
  refine drain_keeps k (fun _ h => h) _ _ (hm ▸ hp m) fun it hit => ?_
  rw [hitems] at hit
  exact hn m _ (hnew it (by simpa using hit)).1

/-- An event followed to its end. -/
theorem Device.runJob_keeps {P : Device → Prop} {J : Job → Prop} (k : KeptByEvent P J) (d : Device) (j : Job) (hp : P d) (hj : J j) :
    P (d.runJob j) :=
  Device.runEffect_keeps k d _ (fun m => k.act [] d j m hp hj) (fun m => k.handsOn [] d j m hp hj)

/-- Events that come together: what each of them and the command keeps is kept by all of them, in whatever order they are taken. -/
theorem Device.runRoots_keeps {P : Device → Prop} {J : Job → Prop} {command : Device → Device} (k : KeptByEvent P J)
    (hc : ∀ d, P d → P (command d)) (d : Device) (roots : List Job) (hp : P d) (hj : ∀ j ∈ roots, J j) :
    P (d.runRoots command roots) :=
  drain_keeps k hc _ _ hp fun _ hit => hj _ (mem_rootItems hit).1

/-! ## Every waiting event is taken -/

/-- The event hands on at most 64 others: a channel passes through at most two validities at once. -/
def Job.Modest (j : Job) : Prop := ∀ c x vs, j = .channelChange c x vs → vs.length ≤ 2

/-- A bound on the events that can still follow the waiting ones, themselves included. -/
def weight (xs : List Item) : Nat := (xs.map fun x => 65 ^ x.life).sum

theorem length_flatMap_le {α : Type} (xs : List α) (f : α → List Job) (n : Nat) (h : ∀ x ∈ xs, (f x).length ≤ n) :
    (xs.flatMap f).length ≤ xs.length * n := by
  induction xs with
  | nil => simp
  | cons x xs ih =>
    have h1 := h x List.mem_cons_self
    have h2 := ih fun y hy => h y (List.mem_cons_of_mem _ hy)
    simp only [List.flatMap_cons, List.length_append, List.length_cons, Nat.add_mul]
    omega

theorem Channel.tickValidities_length (c : Channel) : c.tickValidities.length ≤ 2 := by
  unfold Channel.tickValidities
  dsimp only
  split
  · simp
  · split <;> simp

theorem sampleValidities_length (c : Channel) (w : Word) : (sampleValidities c w).length ≤ 1 := by
  unfold sampleValidities
  dsimp only
  split <;> simp

theorem validityJobs_length (d : Device) (c : Fin 32) (old : Validity) (vs : List Validity) (h : vs.length ≤ 2) :
    (validityJobs d c old vs).length ≤ 25 := by
  unfold validityJobs
  have h1 := length_flatMap_le vs
    (fun v => ((List.finRange 12).filter fun z => d.zones[z].measChannel == c).map fun z => Job.zoneValidity z v) 12
    (fun v _ => by rw [List.length_map]; exact Nat.le_trans (List.length_filter_le _ _) (by simp))
  have h2 : (if c = d.speed.speedChannel ∧ old = .fresh ∧ vs ≠ [] then [Job.speedLoss] else []).length ≤ 1 := by split <;> simp
  simp only [List.length_append]
  omega

theorem act_next_length (ws : List Job) (d : Device) (j : Job) (h : j.Modest) : (act ws d j).next.length ≤ 25 := by
  cases j
  case channelChange c x vs => exact validityJobs_length _ _ _ _ (h c x vs rfl)
  case controlWord w => simp only [act, Device.takeControl]; split <;> simp
  case hardRise c n => simp only [act, Device.declareEffect]; split <;> simp [declarationJobs]
  case monitorTick => simp only [act]; split <;> simp [declarationJobs]
  case timerClock k s => simp only [act, Device.clockEffect]; split <;> simp
  all_goals simp [act, Device.announceChannel]

theorem timerReactions_length (d0 d : Device) (b : Bool) : (timerReactions d0 d b).length ≤ 6 :=
  length_flatMap_le (List.finRange 6) _ 1 fun k _ => by dsimp only; split <;> simp

theorem demandReactions_length (d0 d : Device) : (demandReactions d0 d).length ≤ 12 :=
  length_flatMap_le (List.finRange 12) _ 1 fun k _ => by split <;> simp

theorem hardReactions_length (d0 d : Device) (b : Bool) : (hardReactions d0 d b).length ≤ 1 := by
  unfold hardReactions; dsimp only; split <;> simp

theorem softReactions_length (d0 d : Device) : (softReactions d0 d).length ≤ 2 := by
  unfold softReactions
  rw [List.length_append]
  have h1 : ∀ (b : Bool) (j : Job), (if b = true then [j] else []).length ≤ 1 := fun b j => by split <;> simp
  have := h1 (!hardRises d0 d && !d0.softLevel && d.softLevel) (.softRise (d.causeIndex .softTerm))
  have := h1 (d0.softLevel && !d.softLevel) .softFall
  omega

theorem captureReactions_length (d0 d : Device) : (captureReactions d0 d).length ≤ 1 := by
  unfold captureReactions; dsimp only; split <;> simp

theorem leftToRaise_length (d0 : Device) (e : Effect) (m : TermSet) : (leftToRaise d0 e m).length ≤ 1 := by
  cases h : leftToRaise d0 e m with
  | nil => simp
  | cons j js =>
    obtain ⟨_, _, hp, -⟩ := mem_leftToRaise (j := j) (h ▸ List.mem_cons_self)
    rw [← h, hp]
    simp

/-- One effect hands on at most 64 events. -/
theorem handedOn_length (d0 : Device) (e : Effect) (m : TermSet) (h : e.next.length ≤ 25) : (handedOn d0 e m).length ≤ 64 := by
  have h1 := timerReactions_length d0 (settled d0 e m) true
  have h2 := timerReactions_length d0 (settled d0 e m) false
  have h3 := demandReactions_length d0 (settled d0 e m)
  have h4 := hardReactions_length d0 (settled d0 e m) true
  have h5 := hardReactions_length d0 (settled d0 e m) false
  have h6 := softReactions_length d0 (settled d0 e m)
  have h7 := captureReactions_length d0 (settled d0 e m)
  have h8 := leftToRaise_length d0 e m
  simp only [handedOn, directReactions, termReactions, List.length_append]
  omega

/-- The reactions are modest. -/
theorem reactions_modest (d0 d : Device) :
    (∀ j ∈ directReactions d0 d, j.Modest) ∧ ∀ j ∈ termReactions d0 d, j.Modest := by
  have ht : ∀ b, ∀ j ∈ timerReactions d0 d b, j.Modest := by
    intro b j hj
    obtain ⟨k, -, h⟩ := List.mem_flatMap.mp hj
    dsimp only at h
    split at h
    · rw [List.mem_singleton.mp h]; rintro c x vs ⟨⟩
    · cases h
  have hh : ∀ b, ∀ j ∈ hardReactions d0 d b, j.Modest := by
    intro b j hj
    unfold hardReactions at hj
    dsimp only at hj
    split at hj
    · rw [List.mem_singleton.mp hj]; rintro c x vs ⟨⟩
    · cases hj
  refine ⟨fun j hj => ?_, fun j hj => ?_⟩
  · rcases List.mem_append.mp hj with h | h
    · exact ht _ _ h
    · exact hh _ _ h
  · simp only [termReactions, List.mem_append] at hj
    rcases hj with (((h | h) | h) | h) | h
    · exact ht _ _ h
    · obtain ⟨k, -, h⟩ := List.mem_flatMap.mp h
      split at h
      · rw [List.mem_singleton.mp h]; rintro c x vs ⟨⟩
      · cases h
    · exact hh _ _ h
    · unfold softReactions at h
      rcases List.mem_append.mp h with h | h
      all_goals
        split at h
        · rw [List.mem_singleton.mp h]; rintro c x vs ⟨⟩
        · cases h
    · unfold captureReactions at h
      dsimp only at h
      split at h
      · cases h
      · rw [List.mem_singleton.mp h]; rintro c x vs ⟨⟩

/-- What an event hands on itself is modest. -/
theorem act_next_modest (ws : List Job) (d : Device) (j : Job) : ∀ x ∈ (act ws d j).next, x.Modest := by
  have hd : ∀ x ∈ declarationJobs, x.Modest := by
    intro x hx
    simp only [declarationJobs, List.mem_cons, List.not_mem_nil, or_false] at hx
    rcases hx with rfl | rfl <;> rintro c x vs ⟨⟩
  intro x hx
  cases j
  case channelTick c =>
    simp only [act, Device.announceChannel, List.mem_singleton] at hx
    subst hx; rintro c' x' vs ⟨⟩; exact Channel.tickValidities_length _
  case channelSample c w =>
    simp only [act, Device.announceChannel, List.mem_singleton] at hx
    subst hx; rintro c' x' vs ⟨⟩; have := sampleValidities_length d.channels[c] w; omega
  case channelChange c y vs =>
    simp only [act, Device.changeChannel, validityJobs, List.mem_append] at hx
    rcases hx with h | h
    · split at h
      · rw [List.mem_singleton.mp h]; rintro c x vs ⟨⟩
      · cases h
    · obtain ⟨v, -, h⟩ := List.mem_flatMap.mp h
      obtain ⟨z, -, rfl⟩ := List.mem_map.mp h
      rintro c x vs ⟨⟩
  case controlWord w =>
    simp only [act, Device.takeControl] at hx
    split at hx
    · rw [List.mem_singleton.mp hx]; rintro c x vs ⟨⟩
    · cases hx
  case hardRise c n =>
    simp only [act, Device.declareEffect] at hx
    split at hx
    · exact hd x hx
    · cases hx
  case monitorTick =>
    simp only [act] at hx
    split at hx
    · exact hd x hx
    · cases hx
  case timerClock k s =>
    simp only [act, Device.clockEffect] at hx
    split at hx
    · rw [List.mem_singleton.mp hx]; rintro c x vs ⟨⟩
    · cases hx
  all_goals cases hx

theorem handedOn_modest (d0 : Device) (e : Effect) (m : TermSet) (h : ∀ x ∈ e.next, x.Modest) : ∀ x ∈ handedOn d0 e m, x.Modest := by
  intro x hx
  simp only [handedOn, List.mem_append] at hx
  rcases hx with ((h' | h') | h') | h'
  · exact h x h'
  · exact (reactions_modest _ _).1 x h'
  · obtain ⟨_, _, -, rfl⟩ := mem_leftToRaise h'
    rintro c x vs ⟨⟩
  · exact (reactions_modest _ _).2 x h'

theorem weight_append (xs ys : List Item) : weight (xs ++ ys) = weight xs + weight ys := by simp [weight]

theorem weight_perm {xs ys : List Item} (h : xs.Perm ys) : weight xs = weight ys := (h.map _).sum_eq

/-- Events of at most this life. -/
theorem weight_le (xs : List Item) (n : Nat) (h : ∀ x ∈ xs, x.life = n) : weight xs = xs.length * 65 ^ n := by
  induction xs with
  | nil => simp [weight]
  | cons x xs ih =>
    have h1 := ih fun y hy => h y (List.mem_cons_of_mem _ hy)
    simp only [weight, List.map_cons, List.sum_cons, List.length_cons, Nat.add_mul, Nat.one_mul] at h1 ⊢
    rw [h1, h x List.mem_cons_self]
    omega

/-- Taking an event lowers the bound: what it hands on can be followed by less than it could itself. -/
theorem Cascades.next_weight (c : Cascades) (command : Device → Device) (it : Item) (rest : List Item) (d : Device)
    (hm : it.job.Modest) : weight (c.next command it rest d).items < weight (it :: rest) := by
  have hpos : 0 < 65 ^ it.life := Nat.pow_pos (by omega)
  have hcons : weight (it :: rest) = 65 ^ it.life + weight rest := by simp [weight]
  rcases Cascades.next_cases c command it rest d with ⟨-, -, hitems⟩ | ⟨-, m, -, new, hitems, hlen, hnew, -⟩
  · rw [hitems, hcons]; omega
  · rw [hitems, weight_append, hcons]
    have hl := Nat.le_trans hlen (handedOn_length d _ m (act_next_length _ _ _ hm))
    cases hlife : it.life with
    | zero =>
      have : new = [] := List.eq_nil_iff_forall_not_mem.mpr fun x hx => by have := (hnew x hx).2; omega
      rw [hlife] at hpos
      simp [this, weight]
    | succ n =>
      rw [weight_le new n fun x hx => by have := (hnew x hx).2; omega]
      have hmul : new.length * 65 ^ n ≤ 64 * 65 ^ n := Nat.mul_le_mul_right _ hl
      have hp : 0 < 65 ^ n := Nat.pow_pos (by omega)
      rw [Nat.pow_succ]
      omega

/-- EVERY WAITING EVENT IS TAKEN: with enough fuel, what holds at the start and is kept whenever one event is taken holds at the end, where no
event waits any more. -/
theorem drain_ends {Q : Cascades → Prop} {command : Device → Device} (n : Nat) (c : Cascades) (hQ : Q c)
    (hm : ∀ it ∈ c.items, it.job.Modest) (hw : weight c.items ≤ n)
    (hstep : ∀ c it rest d, Q c → (∀ x ∈ c.items, x.job.Modest) → pickNext c = some (it, rest, d) →
      Q (c.next command it rest d)) :
    ∃ c', Q c' ∧ c'.items = [] ∧ drain command n c = c'.dev := by
  induction n generalizing c with
  | zero =>
    refine ⟨c, hQ, ?_, rfl⟩
    cases hi : c.items with
    | nil => rfl
    | cons x xs =>
      exfalso
      rw [hi] at hw
      have hpos : 0 < 65 ^ x.life := Nat.pow_pos (by omega)
      have : weight (x :: xs) = 65 ^ x.life + weight xs := by simp [weight]
      omega
  | succ n ih =>
    unfold drain
    cases hp : pickNext c with
    | none => exact ⟨c, hQ, pickNext_none hp, rfl⟩
    | some r =>
      obtain ⟨it, rest, d⟩ := r
      have hperm := pickNext_perm hp
      have hmem : ∀ x ∈ it :: rest, x.job.Modest := fun x hx => hm x (hperm.mem_iff.mp hx)
      refine ih _ (hstep _ _ _ _ hQ hm hp) ?_ ?_
      · intro x hx
        rcases Cascades.next_cases c command it rest d with ⟨-, -, hitems⟩ | ⟨-, m, -, new, hitems, -, hnew, -⟩
        · exact hmem x (List.mem_cons_of_mem _ (hitems ▸ hx))
        · rw [hitems] at hx
          rcases List.mem_append.mp hx with h | h
          · exact hmem x (List.mem_cons_of_mem _ h)
          · exact handedOn_modest _ _ _ (act_next_modest _ _ _) _ (hnew x h).1
      · have h1 := Cascades.next_weight c command it rest d (hmem it List.mem_cons_self)
        have h2 := weight_perm hperm
        omega

/-- Events that come together: what the start has and every taken event keeps, the end has, with no event waiting. -/
theorem Device.runRoots_ends {Q : Cascades → Prop} {command : Device → Device} (d : Device) (roots : List Job)
    (hm : ∀ j ∈ roots, j.Modest)
    (hQ : Q { dev := d, items := rootItems roots, masks := List.replicate roots.length 0 })
    (hstep : ∀ c it rest d, Q c → (∀ x ∈ c.items, x.job.Modest) → pickNext c = some (it, rest, d) →
      Q (c.next command it rest d)) :
    ∃ c', Q c' ∧ c'.items = [] ∧ d.runRoots command roots = c'.dev := by
  refine drain_ends _ _ hQ
    (fun it hit => hm _ (mem_rootItems hit).1)
    ?_ hstep
  rw [weight_le _ Config.generations fun x hx => (mem_rootItems hx).2, length_rootItems, Nat.mul_comm]
  exact Nat.le_succ _

/-- An effect and what follows from it: what holds once the effect has settled and every taken event keeps, the end has. -/
theorem Device.runEffect_ends {Q : Cascades → Prop} (d : Device) (e : Effect) (hl : e.next.length ≤ 25) (hm : ∀ j ∈ e.next, j.Modest)
    (hQ : Q (({ dev := d, items := [], masks := [0] } : Cascades).take 0 0 Config.generations false d e))
    (hstep : ∀ c it rest d, Q c → (∀ x ∈ c.items, x.job.Modest) → pickNext c = some (it, rest, d) →
      Q (c.next id it rest d)) :
    ∃ c', Q c' ∧ c'.items = [] ∧ d.runEffect e = c'.dev := by
  obtain ⟨m, -, new, hitems, hlen, hnew, -⟩ :=
    Cascades.take_cases ({ dev := d, items := [], masks := [0] } : Cascades) 0 0 Config.generations false d e
  rw [List.nil_append] at hitems
  refine drain_ends _ _ hQ (fun it hit => handedOn_modest _ _ _ hm _ (hnew it (hitems ▸ hit)).1) ?_ hstep
  rw [hitems, weight_le new 254 fun x hx => Nat.add_right_cancel (m := 1) (hnew x hx).2]
  have h1 := Nat.mul_le_mul_right (65 ^ 254) (Nat.le_trans hlen (handedOn_length d e m hl))
  have h2 : Config.cascadeFuel = 65 ^ 254 * 65 := rfl
  omega

/-- One event alone is the same as one that comes together with none. -/
theorem Device.runRoots_single (d : Device) (j : Job) (hj : j ≠ .command) : d.runRoots id [j] = d.runJob j := by
  show drain id (Config.cascadeFuel * 1 + 1)
    { dev := d, items := [{ origin := 0, cascade := 0, byTerm := false, life := Config.generations, job := j }], masks := [0] } = _
  rw [Nat.mul_one, drain, pickNext_single d { origin := 0, cascade := 0, byTerm := false, life := Config.generations, job := j }]
  show drain id _ (Cascades.next _ _ _ _ _) = _
  unfold Cascades.next
  rw [if_neg hj]
  rfl

end Sys2Proof.Machine
end

