-- ==== Sys2Proof/Laws/Blocks.lean ====
section
/-! SUPPORT. What each block's operations can change at all: one frame lemma for each, saying which parts of the device may differ
afterwards; every other part is as before. -/

namespace Sys2Proof.Machine

/-! ## The frames -/

/-- Only the event queue may differ. -/
def OnlyEvents (d d' : Device) : Prop := ∃ q, d' = { d with events := q }

/-- Only zones, the commit record, the Mailbox's executing command and pending result, the event queue and the model's own fields may
differ. -/
def OnlyZones (d d' : Device) : Prop :=
  ∃ zs c x p q o b, d' = { d with
    zones := zs, profile := { d.profile with commit := c }, mailbox := { d.mailbox with executing := x, pending := p }, events := q
    choices := o, breakMet := b }

/-- Only the Ring Port's link state, bad run and countdown, and the event queue may differ. -/
def OnlyLink (d d' : Device) : Prop :=
  ∃ l b t q, d' = { d with port := { d.port with link := l, badRun := b, timeoutCountdown := t }, events := q }

/-- Only the Capture Buffer and the event queue may differ. -/
def OnlyCapture (d d' : Device) : Prop := ∃ c q, d' = { d with capture := c, events := q }

/-- Only the Monitor, the actuators and the event queue may differ. -/
def OnlyMonitor (d d' : Device) : Prop := ∃ m a q, d' = { d with monitor := m, actuators := a, events := q }

/-- Only the terms and the event queue may differ. -/
def OnlyTerms (d d' : Device) : Prop := ∃ t q, d' = { d with terms := t, events := q }

/-- Only the channels and the event queue may differ. -/
def OnlyChannels (d d' : Device) : Prop := ∃ c q, d' = { d with channels := c, events := q }

/-- Only the timers may differ. -/
def OnlyTimers (d d' : Device) : Prop := ∃ t, d' = { d with timers := t }

theorem OnlyZones.refl (d : Device) : OnlyZones d d :=
  ⟨d.zones, d.profile.commit, d.mailbox.executing, d.mailbox.pending, d.events, d.choices, d.breakMet, rfl⟩

theorem OnlyZones.trans {a b c : Device} (h : OnlyZones a b) (k : OnlyZones b c) : OnlyZones a c := by
  obtain ⟨zs, cm, x, p, q, o, b, rfl⟩ := h
  obtain ⟨zs', cm', x', p', q', o', b', rfl⟩ := k
  exact ⟨zs', cm', x', p', q', o', b', rfl⟩

/-! ## Shared operations -/

theorem Device.raise_frame (d : Device) (k : EventKind) (n : Nat) (v : Word) : OnlyEvents d (d.raise k n v) := ⟨_, rfl⟩

theorem Device.raiseAll_frame (d : Device) (n : Nat) (evs : List (EventKind × Word)) : OnlyEvents d (d.raiseAll n evs) := by
  induction evs generalizing d with
  | nil => exact ⟨d.events, rfl⟩
  | cons e es ih =>
    obtain ⟨q, h⟩ := ih (d.raise e.1 n e.2)
    exact ⟨q, h⟩

/-- R188: a queue of at most 32 records keeps at most 32. -/
theorem EventQueue.offer_length (q : EventQueue) (e : EventRecord) (h : q.records.length ≤ 32) : (q.offer e).records.length ≤ 32 := by
  unfold EventQueue.offer Config.eventCapacity
  split <;> simp <;> omega

/-- All that an offer does: the record joins the newest end, or the queue stands full with overrun set. -/
theorem EventQueue.offer_cases (q : EventQueue) (e : EventRecord) :
    (q.records.length < 32 ∧ q.offer e = { q with records := q.records ++ [e] })
      ∨ (32 ≤ q.records.length ∧ q.offer e = { q with overrun := true }) := by
  unfold EventQueue.offer Config.eventCapacity
  split
  · exact .inl ⟨‹_›, rfl⟩
  · exact .inr ⟨by omega, rfl⟩

/-- An event raised after a first part of what is told is told. -/
theorem EventQueue.told_offer (q q' : EventQueue) (kind : EventKind) (source : Nat) (stamp : BitVec 32) (value : Word)
    (h : q.records.length ≤ q'.records.length) :
    q.Told (q'.offer { kind := kind, source := BitVec.ofNat 8 source, stamp := stamp, value := value }) kind source stamp value := by
  rcases q'.offer_cases { kind := kind, source := BitVec.ofNat 8 source, stamp := stamp, value := value } with ⟨-, e⟩ | ⟨hl, e⟩
  · rw [e]; left; simp [List.drop_append_of_le_length h]
  · rw [e]; exact .inr ⟨hl, rfl⟩

/-- What is told stays told when a further event is raised. -/
theorem EventQueue.Told.offer {q q' : EventQueue} {kind : EventKind} {source : Nat} {stamp : BitVec 32} {value : Word}
    (h : q.Told q' kind source stamp value) (e : EventRecord) : q.Told (q'.offer e) kind source stamp value := by
  rcases q'.offer_cases e with ⟨hl, he⟩ | ⟨hl, he⟩
  · rw [he]
    rcases h with h | ⟨hf, -⟩
    · left
      rcases Nat.le_total q.records.length q'.records.length with hq | hq
      · simp [List.drop_append_of_le_length hq, h]
      · rw [List.drop_eq_nil_of_le hq] at h; cases h
    · omega
  · rw [he]; exact .inr ⟨hl, rfl⟩

theorem OnlyZones.of_zone (d : Device) (z : Fin 12) (x : Zone) : OnlyZones d (d.setZone z x) :=
  ⟨_, d.profile.commit, d.mailbox.executing, d.mailbox.pending, d.events, d.choices, d.breakMet, rfl⟩

theorem OnlyZones.of_raise (d : Device) (k : EventKind) (n : Nat) (v : Word) : OnlyZones d (d.raise k n v) :=
  ⟨d.zones, d.profile.commit, d.mailbox.executing, d.mailbox.pending, _, d.choices, d.breakMet, rfl⟩

theorem OnlyZones.of_raiseOption (d : Device) (e : Option (EventKind × Nat × Word)) : OnlyZones d (d.raiseOption e) := by
  cases e with
  | none => exact OnlyZones.refl d
  | some x => exact OnlyZones.of_raise d _ _ _

/-- R188: two events in either order. -/
theorem OnlyZones.of_raiseEither (d : Device) (o : Option (EventKind × Nat × Word)) (e : EventKind × Nat × Word) :
    OnlyZones d (d.raiseEither o e) := by
  cases o with
  | none => exact OnlyZones.of_raise d _ _ _
  | some x =>
    have hc : OnlyZones d (d.choose 2).2 := by
      obtain ⟨c, h⟩ := Device.choose_dev d 2
      rw [h]
      exact ⟨d.zones, d.profile.commit, d.mailbox.executing, d.mailbox.pending, d.events, c, d.breakMet, rfl⟩
    unfold Device.raiseEither
    dsimp only
    split <;> exact (hc.trans (OnlyZones.of_raiseOption _ _)).trans (OnlyZones.of_raiseOption _ _)

/-- R64. -/
theorem Device.completeCommit_frame (d : Device) (r : Commit) : OnlyZones d (d.completeCommit r) := by
  unfold Device.completeCommit
  dsimp only
  split
  · exact ⟨d.zones, none, none, _, d.events, d.choices, d.breakMet, rfl⟩
  · exact ⟨d.zones, none, d.mailbox.executing, d.mailbox.pending, d.events, d.choices, d.breakMet, rfl⟩

/-- R63. -/
theorem Device.clearMark_frame (d : Device) (z : Fin 12) (b : Bool) : OnlyZones d (d.clearMark z b).1 := by
  unfold Device.clearMark
  split
  · dsimp only
    split
    · exact OnlyZones.of_zone _ _ _
    · split
      · exact ⟨_, some _, d.mailbox.executing, d.mailbox.pending, d.events, d.choices, d.breakMet, rfl⟩
      · exact (OnlyZones.of_zone _ _ _).trans (Device.completeCommit_frame _ _)
  · exact OnlyZones.refl d

/-- R63, R64. -/
theorem Device.endMark_frame (d : Device) (z : Fin 12) (b : Bool) : OnlyZones d (d.endMark z b) :=
  (Device.clearMark_frame d z b).trans (OnlyZones.of_raiseOption _ _)

/-! ## Zones -/

theorem Device.faultZone_frame (d : Device) (z : Fin 12) (v : Word) : OnlyZones d (d.faultZone z v) :=
  ((Device.clearMark_frame d z false).trans (OnlyZones.of_zone _ _ _)).trans (OnlyZones.of_raiseEither _ _ _)

theorem Device.holdZone_frame (d : Device) (z : Fin 12) (v : Word) : OnlyZones d (d.holdZone z v) :=
  ((Device.clearMark_frame d z false).trans (OnlyZones.of_zone _ _ _)).trans (OnlyZones.of_raiseEither _ _ _)

theorem Device.purgeZone_frame (d : Device) (z : Fin 12) : OnlyZones d (d.purgeZone z) :=
  (Device.endMark_frame d z false).trans (OnlyZones.of_zone _ _ _)

theorem Device.resumeZone_frame (d : Device) (z : Fin 12) : OnlyZones d (d.resumeZone z) := by
  unfold Device.resumeZone
  dsimp only
  split
  · exact OnlyZones.refl d
  · exact (OnlyZones.of_zone _ _ _).trans (OnlyZones.of_raise _ _ _ _)
  · exact (OnlyZones.of_zone _ _ _).trans (OnlyZones.of_raise _ _ _ _)

theorem Device.entryCheck_frame (d : Device) (z : Fin 12) : OnlyZones d (d.entryCheck z) := by
  unfold Device.entryCheck
  split
  · exact Device.faultZone_frame _ _ _
  · split
    · exact Device.holdZone_frame _ _ _
    · split
      · exact Device.holdZone_frame _ _ _
      · exact OnlyZones.refl d

theorem Device.enterPreheatSeeded_frame (d : Device) (z : Fin 12) : OnlyZones d (d.enterPreheatSeeded z) :=
  (OnlyZones.of_zone d z _).trans (Device.entryCheck_frame _ z)

theorem Device.zoneSeesValidity_frame (d : Device) (z : Fin 12) (v : Validity) (b : Bool) :
    OnlyZones d (d.zoneSeesValidity z v b) := by
  unfold Device.zoneSeesValidity
  dsimp only
  split
  · exact Device.holdZone_frame _ _ _
  · exact Device.holdZone_frame _ _ _
  · exact Device.faultZone_frame _ _ _
  · exact Device.faultZone_frame _ _ _
  · exact Device.faultZone_frame _ _ _
  · exact OnlyZones.of_zone _ _ _
  · split
    · exact OnlyZones.refl d
    · exact Device.resumeZone_frame d z
  · exact OnlyZones.refl d

theorem Device.zoneSeesDemand_frame (d : Device) (z : Fin 12) (b : Bool) : OnlyZones d (d.zoneSeesDemand z b) := by
  unfold Device.zoneSeesDemand
  split
  · exact Device.holdZone_frame _ _ _
  · exact Device.holdZone_frame _ _ _
  · split
    · exact Device.resumeZone_frame d z
    · exact OnlyZones.refl d
  · exact OnlyZones.refl d

theorem Device.zoneSeesBreak_frame (d : Device) (z : Fin 12) : OnlyZones d (d.zoneSeesBreak z) := by
  unfold Device.zoneSeesBreak
  dsimp only
  split
  · exact Device.purgeZone_frame d z
  · exact Device.purgeZone_frame d z
  · exact OnlyZones.of_zone _ _ _
  · exact OnlyZones.of_zone _ _ _
  · exact OnlyZones.refl d

/-- A change of one zone after another. -/
theorem OnlyZones.fold {f : Device → Fin 12 → Device} (h : ∀ d z, OnlyZones d (f d z)) (zs : List (Fin 12)) (d : Device) :
    OnlyZones d (zs.foldl f d) := by
  induction zs generalizing d with
  | nil => exact OnlyZones.refl d
  | cons z zs ih => exact (h d z).trans (ih _)

theorem Device.zonesSeeBreak_frame (d : Device) : OnlyZones d d.zonesSeeBreak :=
  OnlyZones.trans ⟨d.zones, d.profile.commit, d.mailbox.executing, d.mailbox.pending, d.events, d.choices, _, rfl⟩
    (OnlyZones.fold Device.zoneSeesBreak_frame _ _)

theorem Device.zoneTick_frame (d : Device) (z : Fin 12) : OnlyZones d (d.zoneTick z) := by
  unfold Device.zoneTick
  dsimp only
  split
  · split
    · exact OnlyZones.of_zone _ _ _
    · split
      · exact Device.faultZone_frame _ _ _
      · exact Device.enterPreheatSeeded_frame d z
  · exact OnlyZones.refl d

theorem Device.zoneArrival_frame (d : Device) (z : Fin 12) : OnlyZones d (d.zoneArrival z) := by
  unfold Device.zoneArrival
  dsimp only
  split
  · split
    · exact Device.faultZone_frame _ _ _
    · split
      · split
        · exact (OnlyZones.of_zone _ _ _).trans (Device.endMark_frame _ _ _)
        · exact OnlyZones.of_zone _ _ _
      · split
        · exact (OnlyZones.of_zone _ _ _).trans (Device.endMark_frame _ _ _)
        · exact OnlyZones.of_zone _ _ _
  · exact OnlyZones.refl d

theorem Device.commandZone_frame (d : Device) (z : Fin 12) (m : Mode) : OnlyZones d (d.commandZone z m) := by
  unfold Device.commandZone
  dsimp only
  split
  · exact OnlyZones.refl d
  · exact (Device.endMark_frame d z false).trans (OnlyZones.of_zone _ _ _)
  · exact Device.enterPreheatSeeded_frame d z
  · exact ((Device.endMark_frame d z false).trans (OnlyZones.of_zone _ _ _)).trans (Device.entryCheck_frame _ _)
  · exact (OnlyZones.of_zone _ _ _).trans (Device.entryCheck_frame _ _)
  · exact OnlyZones.refl d

theorem Device.commandZones_frame (d : Device) (mask : Word) (m : Mode) : OnlyZones d (d.commandZones mask m) :=
  OnlyZones.fold (fun d z => by
    split
    · exact Device.commandZone_frame d z m
    · exact OnlyZones.refl d) _ d

/-! ## Ring Port, channels, tracker -/

theorem Device.timeoutTick_frame (d : Device) : OnlyLink d d.timeoutTick := by
  unfold Device.timeoutTick
  dsimp only
  split
  · exact ⟨.lost, d.port.badRun, _, _, rfl⟩
  · exact ⟨d.port.link, d.port.badRun, _, d.events, rfl⟩

theorem Device.linkGood_frame (d : Device) : OnlyLink d d.linkGood := by
  unfold Device.linkGood
  dsimp only
  split
  · exact ⟨.locked, 0, d.port.timeoutCountdown, _, rfl⟩
  · exact ⟨.locked, 0, d.port.timeoutCountdown, _, rfl⟩
  · exact ⟨.locked, 0, d.port.timeoutCountdown, d.events, rfl⟩

theorem Device.linkBad_frame (d : Device) : OnlyLink d d.linkBad := by
  unfold Device.linkBad
  dsimp only
  split
  · exact ⟨.lost, _, d.port.timeoutCountdown, _, rfl⟩
  · exact ⟨d.port.link, _, d.port.timeoutCountdown, _, rfl⟩

theorem Device.changeChannel_frame (d : Device) (c : Fin 32) (x : Channel) (vs : List Validity) :
    OnlyChannels d (d.changeChannel c x vs).dev := ⟨d.channels.set c x, d.events, rfl⟩

theorem Device.announceChannel_frame (d : Device) (c : Fin 32) (r : ChannelChange) (vs : List Validity) :
    OnlyEvents d (d.announceChannel c r vs).dev := Device.raiseAll_frame d c.val r.2

theorem Device.speedSample_frame (d : Device) : ∃ s, d.speedSample = { d with speed := s } := by
  unfold Device.speedSample
  dsimp only
  split
  · exact ⟨_, rfl⟩
  · exact ⟨d.speed, rfl⟩

/-! ## Monitor, capture, terms, timers -/

theorem Device.declareBreak_frame (d : Device) (c : BreakCause) (i : Nat) : OnlyMonitor d (d.declareBreak c i) := by
  unfold Device.declareBreak
  split
  · exact ⟨_, _, _, rfl⟩
  · exact ⟨d.monitor, d.actuators, d.events, rfl⟩

theorem Device.enterSuspect_frame (d : Device) (i : Nat) : OnlyMonitor d (d.enterSuspect i) := by
  unfold Device.enterSuspect
  split
  · exact ⟨_, d.actuators, _, rfl⟩
  · exact ⟨d.monitor, d.actuators, d.events, rfl⟩

theorem Device.clearSuspect_frame (d : Device) : OnlyMonitor d d.clearSuspect := by
  unfold Device.clearSuspect
  split
  · exact ⟨_, d.actuators, _, rfl⟩
  · exact ⟨d.monitor, d.actuators, d.events, rfl⟩

theorem Device.monitorTick_frame (d : Device) : OnlyMonitor d d.monitorTick.1 := by
  unfold Device.monitorTick
  split
  · dsimp only
    split
    · obtain ⟨m, a, q, h⟩ := Device.declareBreak_frame { d with monitor := d.monitor.countTick } .softTerm
        (({ d with monitor := d.monitor.countTick } : Device).causeIndex .softTerm)
      exact ⟨m, a, q, h⟩
    · exact ⟨_, d.actuators, d.events, rfl⟩
  · exact ⟨d.monitor, d.actuators, d.events, rfl⟩

theorem Device.captureTrigger_frame (d : Device) (n : Nat) : OnlyCapture d (d.captureTrigger n) := by
  unfold Device.captureTrigger
  dsimp only
  split
  · split
    · exact ⟨_, _, rfl⟩
    · exact ⟨_, _, rfl⟩
  · exact ⟨d.capture, d.events, rfl⟩

/-- R173: the triggers of one origin. -/
theorem Device.captureTriggers_frame (d : Device) (ns : List Nat) : OnlyCapture d (ns.foldl Device.captureTrigger d) := by
  induction ns generalizing d with
  | nil => exact ⟨d.capture, d.events, rfl⟩
  | cons n ns ih =>
    obtain ⟨c, q, h⟩ := Device.captureTrigger_frame d n
    obtain ⟨c', q', h'⟩ := ih (d.captureTrigger n)
    exact ⟨c', q', by rw [List.foldl_cons, h', h]⟩

theorem Device.recordCompletion_frame (d : Device) (g : Bool) : OnlyCapture d (d.recordCompletion g) := by
  unfold Device.recordCompletion
  dsimp only
  split
  · split
    · split
      · exact ⟨_, _, rfl⟩
      · exact ⟨_, d.events, rfl⟩
    · exact ⟨_, d.events, rfl⟩
  · exact ⟨d.capture, d.events, rfl⟩

theorem Device.changeTerm_frame (d : Device) (j : Fin 8) (v : Bool) : OnlyTerms d (d.changeTerm j v) := by
  unfold Device.changeTerm
  dsimp only
  split
  · exact ⟨_, _, rfl⟩
  · exact ⟨_, d.events, rfl⟩

theorem Device.settleDeferred_frame (d : Device) (j : Fin 8) : OnlyTerms d (d.settleDeferred j) := by
  unfold Device.settleDeferred
  dsimp only
  split
  · split
    · exact ⟨_, d.events, rfl⟩
    · obtain ⟨t, q, h⟩ := Device.changeTerm_frame (d.setTerm j { d.terms[j] with deferred := false }) j (d.selected d.terms[j])
      exact ⟨t, q, h⟩
  · exact ⟨d.terms, d.events, rfl⟩

theorem Device.clockTimer_frame (d : Device) (k : Fin 6) (c : ClockSource) : OnlyTimers d (d.clockTimer k c).1 := by
  unfold Device.clockTimer
  dsimp only
  split
  · exact ⟨d.timers, rfl⟩
  · exact ⟨_, rfl⟩

theorem Device.edgeTimer_frame (d : Device) (k : Fin 6) (c : Cond) (b : Bool) : OnlyTimers d (d.edgeTimer k c b) := by
  unfold Device.edgeTimer
  dsimp only
  split
  · exact ⟨d.timers, rfl⟩
  · exact ⟨_, rfl⟩

/-- Several events: only the event queue may differ. -/
theorem Device.raiseList_frame (d : Device) (es : List (EventKind × Nat × Word)) : OnlyEvents d (d.raiseList es) := by
  induction es generalizing d with
  | nil => exact ⟨d.events, rfl⟩
  | cons e es ih =>
    obtain ⟨q, h⟩ := ih (d.raise e.1 e.2.1 e.2.2)
    exact ⟨q, h⟩

/-- R123: in a settlement the terms and the event queue may differ, and nothing else. -/
theorem settle_frame (d0 d : Device) (m : TermSet) : OnlyTerms d (settle d0 d m).1 := by
  have h2 : ∀ (js : List (Fin 8)) (p : Device × TermSet), OnlyTerms p.1 (js.foldl (settleTerm d0) p).1 := by
    intro js
    induction js with
    | nil => intro p; exact ⟨p.1.terms, p.1.events, rfl⟩
    | cons j js ih =>
      intro p
      obtain ⟨t, q, h⟩ := ih (settleTerm d0 p j)
      have hj : OnlyTerms p.1 (settleTerm d0 p j).1 := by
        rcases settleTerm_cases d0 p j with h | ⟨h, -⟩ | ⟨h, -⟩
        · rw [h]; exact ⟨p.1.terms, p.1.events, rfl⟩
        · rw [h]; exact ⟨_, p.1.events, rfl⟩
        · rw [h]; exact Device.changeTerm_frame _ _ _
      obtain ⟨t', q', h'⟩ := hj
      refine ⟨t, q, ?_⟩
      rw [List.foldl_cons, h, h']
  exact h2 (List.finRange 8) (d, m)

/-- R131, R188: PERMIT_DROPPED among the terms' events: the permit is DROPPED, and only the event queue may differ beside it. -/
theorem Device.dropAmongTerms_frame (d0 d d1 : Device) (n : Nat) (h : d1.permitFails = true) :
    ∃ q, d0.dropAmongTerms d d1 n = { d1 with permit := .dropped, events := q } := by
  unfold Device.dropAmongTerms Device.dropPermit
  rw [if_pos h]
  exact Device.raiseList_frame _ _

/-- R123, R131: after an effect the terms, the permit, the event queue and the model's choices may differ, and nothing else. -/
theorem settled_frame (d0 : Device) (e : Effect) (m : TermSet) :
    ∃ t p q o, settled d0 e m = { e.dev with terms := t, permit := p, events := q, choices := o } := by
  have hc := settleAndDrop_cases d0 e.dev m
  have hs := settle_frame d0 e.dev m
  unfold settled
  generalize (settle d0 e.dev m).1 = d1 at hc hs
  generalize (settleAndDrop d0 e.dev m) = s at hc
  obtain ⟨t, q, rfl⟩ := hs
  rcases hc with ⟨h, -⟩ | ⟨-, o, h, -⟩ | ⟨hf, -, o, n, h, -⟩
  · exact ⟨t, e.dev.permit, q, e.dev.choices, h⟩
  · exact ⟨t, .dropped, q, o, h⟩
  · obtain ⟨q', hq⟩ := Device.dropAmongTerms_frame d0 e.dev { e.dev with terms := t, events := q, choices := o } n hf
    exact ⟨t, .dropped, q', o, h.trans hq⟩

end Sys2Proof.Machine
end

