-- ==== Sys2Proof/Laws/Mailbox.lean ====
section
/-! SUPPORT. What handing a command to the Mailbox can do: nothing while it is not taken, SOFT_RESET, or the execution of the command. -/

namespace Sys2Proof.Machine

/-- R178, R179: a device whose RSTN is low or whose node address is 0 takes no command. -/
theorem Device.handOff_unserved {d : Device} (h : d.takesCommands = false) (tag : Byte) (c : Cmd) : d.handOff tag c = d := by
  simp [Device.handOff, h]

/-- R179: a command other than SOFT_RESET is not taken while one executes or a result is pending. -/
theorem Device.handOff_busy {d : Device} (h : d.mailboxFree = false) (tag : Byte) {c : Cmd} (hc : c ≠ .softReset) :
    d.handOff tag c = d := by
  simp [Device.handOff, h, hc]

/-- R179, R180: a command that is taken is executed. -/
theorem Device.handOff_free {d : Device} (h : d.Free) (tag : Byte) {c : Cmd} (hc : c ≠ .softReset) :
    d.handOff tag c = d.execute tag c := by
  simp [Device.handOff, h.1, h.2, hc]

/-- R187: SOFT_RESET is taken whatever the Mailbox holds. -/
theorem Device.handOff_softReset {d : Device} (h : d.takesCommands = true) (tag : Byte) : d.handOff tag .softReset = d.softReset := by
  simp [Device.handOff, h]

/-- R180, step 3: a command that the part state lets pass is answered by its own rule. -/
theorem Device.execute_taken {d : Device} {c : Cmd} (h : d.mailbox.ready = true ∨ c.takenUnconfigured = true) (tag : Byte) :
    d.execute tag c = d.finish tag c.code (d.reply tag c) := by
  rcases h with h | h <;> simp [Device.execute, Device.refusesByPart, h]

/-- R180, step 2: a command that the part state refuses. -/
theorem Device.execute_refused {d : Device} {c : Cmd} (h : d.mailbox.ready = false) (hc : c.takenUnconfigured = false) (tag : Byte) :
    d.execute tag c = d.setResult .state tag c.code [0xFFFF] := by
  simp [Device.execute, Device.refusesByPart, h, hc]

/-- How a row of the mailbox is shown to answer: its command is not SOFT_RESET, the part state lets it pass, and its rule answers. -/
theorem answers_of {i : Instr} {s : State} {tag code : Byte} {rc : ResultCode} {data : List Word} {c : Cmd}
    (hi : exec i s = s.become (s.dev.handOff tag c)) (hf : s.dev.Free) (hc : c ≠ .softReset) (hcode : c.code = code)
    (hp : s.dev.mailbox.ready = true ∨ c.takenUnconfigured = true) (h : s.dev.reply tag c = .answer rc data) :
    Answers i s tag code rc data := by
  unfold Answers
  rw [hi, Device.handOff_free hf tag hc, Device.execute_taken hp, h, hcode]
  rfl

/-- R180, step 2: a row that the part state refuses. -/
theorem answers_part {i : Instr} {s : State} {tag code : Byte} {c : Cmd} (hi : exec i s = s.become (s.dev.handOff tag c))
    (hf : s.dev.Free) (hc : c ≠ .softReset) (hcode : c.code = code) (hr : s.dev.mailbox.ready = false)
    (hp : c.takenUnconfigured = false) : Answers i s tag code .state [0xFFFF] := by
  unfold Answers
  rw [hi, Device.handOff_free hf tag hc, Device.execute_refused hr hp, hcode]
  rfl

/-- How a row of the mailbox is shown to leave a device at once. -/
theorem leaves_of {i : Instr} {s : State} {tag code : Byte} {d : Device} {data : List Word} {c : Cmd}
    (hi : exec i s = s.become (s.dev.handOff tag c)) (hf : s.dev.Free) (hc : c ≠ .softReset) (hcode : c.code = code)
    (hp : s.dev.mailbox.ready = true ∨ c.takenUnconfigured = true) (h : s.dev.reply tag c = .store d data) :
    Leaves i s tag code d data := by
  unfold Leaves
  rw [hi, Device.handOff_free hf tag hc, Device.execute_taken hp, h, hcode]
  rfl

/-- How a row of the mailbox is shown to be the originating change of a cascade. -/
theorem settles_of {i : Instr} {s : State} {tag code : Byte} {e : Effect} {data : Device → List Word} {c : Cmd}
    (hi : exec i s = s.become (s.dev.handOff tag c)) (hf : s.dev.Free) (hc : c ≠ .softReset) (hcode : c.code = code)
    (hp : s.dev.mailbox.ready = true ∨ c.takenUnconfigured = true) (h : s.dev.reply tag c = .settled e data) :
    Settles i s tag code e data := by
  unfold Settles Leaves
  rw [hi, Device.handOff_free hf tag hc, Device.execute_taken hp, h, hcode]
  rfl

/-- All that a record index can name. -/
theorem recordIndex_of_eq {n : Nat} {r : Byte} {i : Fin n} (h : r.toNat = i.val) : recordIndex n r = some i := by
  unfold recordIndex
  rw [dif_pos (h ▸ i.isLt)]
  exact congrArg some (Fin.ext h)

/-- A record index beyond the table names nothing. -/
theorem recordIndex_of_le {n : Nat} {r : Byte} (h : n ≤ r.toNat) : recordIndex n r = none := dif_neg (Nat.not_lt.mpr h)

/-- All that an index word can name. -/
theorem wordIndex_of_eq {n : Nat} {w : Word} {i : Fin n} (h : w.toNat = i.val) : wordIndex n w = some i := by
  unfold wordIndex
  rw [dif_pos (h ▸ i.isLt)]
  exact congrArg some (Fin.ext h)

/-- An index word beyond the range names nothing. -/
theorem wordIndex_of_le {n : Nat} {w : Word} (h : n ≤ w.toNat) : wordIndex n w = none := dif_neg (Nat.not_lt.mpr h)

/-- R184: a yes/no parameter other than 0 and 1 names neither. -/
theorem yesNo_cases (w : Word) : (w = 1 ∧ yesNo w = some true) ∨ (w = 0 ∧ yesNo w = some false) ∨ (1 < w.toNat ∧ yesNo w = none) := by
  unfold yesNo
  by_cases h1 : w = 1
  · exact Or.inl ⟨h1, if_pos h1⟩
  · by_cases h0 : w = 0
    · exact Or.inr (Or.inl ⟨h0, by rw [if_neg h1, if_pos h0]⟩)
    · refine Or.inr (Or.inr ⟨?_, by rw [if_neg h1, if_neg h0]⟩)
      rcases Nat.lt_or_ge 1 w.toNat with h | h
      · exact h
      · exfalso
        rcases (by omega : w.toNat = 0 ∨ w.toNat = 1) with h | h
        · exact h0 (BitVec.eq_of_toNat_eq h)
        · exact h1 (BitVec.eq_of_toNat_eq h)

end Sys2Proof.Machine
end

