-- ==== Sys2Proof/Laws/RingPort.lean ====
section
/-! SUPPORT. What a word of a frame can do as it passes: where it stands, what it leaves alone, and the two running CRCs. -/

namespace Sys2Proof.Machine

/-- All that can be said of a word's place in a served frame: which words of R1 stand there. -/
theorem SlotMap.placeOf_cases (m : SlotMap) (n p : Nat) :
    (p < 2 ∧ m.placeOf n p = .plain)
      ∨ (p = 2 ∧ m.placeOf n p = .breakWord)
      ∨ (3 ≤ p ∧ p < 3 + n ∧ ((∃ c, m.placeOf n p = .input c) ∨ m.placeOf n p = .control ∨ (∃ a, m.placeOf n p = .output a)
          ∨ m.placeOf n p = .status ∨ m.placeOf n p = .plain))
      ∨ (3 + n ≤ p ∧ p < 16 + n ∧ 2 < p ∧ m.placeOf n p = .command)
      ∨ (p = 16 + n ∧ m.placeOf n p = .resultHead)
      ∨ (16 + n < p ∧ p < 32 + n ∧ m.placeOf n p = .resultRest)
      ∨ (p = 32 + n ∧ m.placeOf n p = .crcHigh)
      ∨ (p = 33 + n ∧ m.placeOf n p = .crcLow)
      ∨ (33 + n < p ∧ m.placeOf n p = .unserved) := by
  unfold SlotMap.placeOf
  by_cases h1 : p < 2
  · exact Or.inl ⟨h1, by rw [if_pos h1]⟩
  rw [if_neg h1]
  by_cases h2 : p = 2
  · exact Or.inr (Or.inl ⟨h2, by rw [if_pos h2]⟩)
  rw [if_neg h2]
  by_cases h3 : p < 3 + n
  · refine Or.inr (Or.inr (Or.inl ⟨by omega, h3, ?_⟩))
    rw [if_pos h3]
    cases m.roleOf (p - 3) with
    | none => exact Or.inr (Or.inr (Or.inr (Or.inr rfl)))
    | some r =>
      cases r with
      | input c => exact Or.inl ⟨c, rfl⟩
      | output a => exact Or.inr (Or.inr (Or.inl ⟨a, rfl⟩))
      | status => exact Or.inr (Or.inr (Or.inr (Or.inl rfl)))
      | control => exact Or.inr (Or.inl rfl)
  rw [if_neg h3]
  by_cases h4 : p < 16 + n
  · exact Or.inr (Or.inr (Or.inr (Or.inl ⟨by omega, h4, by omega, by rw [if_pos h4]⟩)))
  rw [if_neg h4]
  by_cases h5 : p = 16 + n
  · exact Or.inr (Or.inr (Or.inr (Or.inr (Or.inl ⟨h5, by rw [if_pos h5]⟩))))
  rw [if_neg h5]
  by_cases h6 : p < 32 + n
  · exact Or.inr (Or.inr (Or.inr (Or.inr (Or.inr (Or.inl ⟨by omega, h6, by rw [if_pos h6]⟩)))))
  rw [if_neg h6]
  by_cases h7 : p = 32 + n
  · exact Or.inr (Or.inr (Or.inr (Or.inr (Or.inr (Or.inr (Or.inl ⟨h7, by rw [if_pos h7]⟩))))))
  rw [if_neg h7]
  by_cases h8 : p = 33 + n
  · exact Or.inr (Or.inr (Or.inr (Or.inr (Or.inr (Or.inr (Or.inr (Or.inl ⟨h8, by rw [if_pos h8]⟩)))))))
  · exact Or.inr (Or.inr (Or.inr (Or.inr (Or.inr (Or.inr (Or.inr (Or.inr ⟨by omega, by rw [if_neg h8]⟩)))))))

/-- The place of the next word of a frame that is served. -/
theorem Device.place_cycle {d : Device} {n : Nat} (hr : d.lines.rstn = true) (hp : d.port.frame.passage = .cycle n) :
    d.place = d.slotMap.placeOf n d.port.frame.position := by
  simp [Device.place, hp, hr]

/-- While RSTN is low, every word of a frame is forwarded as received. -/
theorem Device.passWord_low {d : Device} (hr : d.lines.rstn = false) (hp : d.port.frame.passage ≠ .idle) (w : Word) :
    d.passWord w = d.forwardWord w := by
  unfold Device.passWord Device.place
  cases h : d.port.frame.passage with
  | idle => exact absurd h hp
  | cycle n => simp [hr, Device.passAt]
  | malformed => rfl
  | transparent => rfl

/-- What passing a word leaves alone, whatever its place: everything but the frame record, the actuators and the mark that a result has been
written; and of the frame record, its passage. -/
theorem Device.passAt_frame (d : Device) (w : Word) (p : Place) :
    ∃ f as b, d.passAt w p = { d with
        port := { d.port with frame := f }, actuators := as, mailbox := { d.mailbox with written := b } }
      ∧ f.passage = d.port.frame.passage := by
  cases p with
  | outside => exact ⟨d.port.frame, d.actuators, d.mailbox.written, rfl, rfl⟩
  | unserved => exact ⟨_, d.actuators, d.mailbox.written, rfl, rfl⟩
  | plain => exact ⟨_, d.actuators, d.mailbox.written, rfl, rfl⟩
  | breakWord => exact ⟨_, d.actuators, d.mailbox.written, rfl, rfl⟩
  | input c => exact ⟨_, d.actuators, d.mailbox.written, rfl, rfl⟩
  | control => exact ⟨_, d.actuators, d.mailbox.written, rfl, rfl⟩
  | status => exact ⟨_, d.actuators, d.mailbox.written, rfl, rfl⟩
  | command => exact ⟨_, d.actuators, d.mailbox.written, rfl, rfl⟩
  | crcHigh => exact ⟨_, d.actuators, d.mailbox.written, rfl, rfl⟩
  | crcLow => exact ⟨_, d.actuators, d.mailbox.written, rfl, rfl⟩
  | output a =>
    show ∃ f as b, d.passOutput a w = _ ∧ _
    unfold Device.passOutput
    split
    · exact ⟨_, _, d.mailbox.written, rfl, rfl⟩
    · exact ⟨_, d.actuators, d.mailbox.written, rfl, rfl⟩
  | resultHead =>
    show ∃ f as b, d.passResultHead w = _ ∧ _
    unfold Device.passResultHead
    dsimp only
    split
    · split
      · exact ⟨_, d.actuators, true, rfl, rfl⟩
      · exact ⟨_, d.actuators, d.mailbox.written, rfl, rfl⟩
    · exact ⟨_, d.actuators, d.mailbox.written, rfl, rfl⟩
  | resultRest =>
    show ∃ f as b, d.passResultRest w = _ ∧ _
    unfold Device.passResultRest
    dsimp only
    split
    · exact ⟨_, d.actuators, d.mailbox.written, rfl, rfl⟩
    · exact ⟨_, d.actuators, d.mailbox.written, rfl, rfl⟩

/-- What passing words leaves alone. -/
theorem Device.passWords_frame (d : Device) (ws : List Word) :
    ∃ f as b, d.passWords ws = { d with
        port := { d.port with frame := f }, actuators := as, mailbox := { d.mailbox with written := b } }
      ∧ f.passage = d.port.frame.passage := by
  induction ws generalizing d with
  | nil => exact ⟨d.port.frame, d.actuators, d.mailbox.written, rfl, rfl⟩
  | cons w ws ih =>
    obtain ⟨f, as, b, h, hf⟩ := Device.passAt_frame d w d.place
    obtain ⟨f', as', b', h', hf'⟩ := ih (d.passAt w d.place)
    refine ⟨f', as', b', ?_, ?_⟩
    · show (d.passAt w d.place).passWords ws = _
      rw [h', h]
    · rw [hf', h]; exact hf

/-- R13: a word before the CRC words joins both running CRCs, one of them as received and one as sent. -/
theorem Device.passWord_crc {d : Device} {n : Nat} (hr : d.lines.rstn = true) (hp : d.port.frame.passage = .cycle n)
    (hpos : d.port.frame.position < 32 + n) (w : Word) :
    ∃ out, (d.passWord w).port.frame.position = d.port.frame.position + 1
      ∧ (d.passWord w).port.frame.crcIn = crcWord d.port.frame.crcIn w
      ∧ (d.passWord w).port.frame.crcOut = crcWord d.port.frame.crcOut out
      ∧ (d.passWord w).port.frame.ringOut = d.port.frame.ringOut ++ [out] := by
  unfold Device.passWord
  rw [Device.place_cycle hr hp]
  have plain : ∃ out, (d.passPlain w).port.frame.position = d.port.frame.position + 1
      ∧ (d.passPlain w).port.frame.crcIn = crcWord d.port.frame.crcIn w
      ∧ (d.passPlain w).port.frame.crcOut = crcWord d.port.frame.crcOut out
      ∧ (d.passPlain w).port.frame.ringOut = d.port.frame.ringOut ++ [out] := ⟨w, rfl, rfl, rfl, rfl⟩
  rcases SlotMap.placeOf_cases d.slotMap n d.port.frame.position with
    ⟨_, h⟩ | ⟨_, h⟩ | ⟨_, _, ⟨c, h⟩ | h | ⟨a, h⟩ | h | h⟩ | ⟨_, _, _, h⟩ | ⟨_, h⟩ | ⟨_, _, h⟩ | ⟨h', _⟩ | ⟨h', _⟩ | ⟨h', _⟩
  · rw [h]; exact plain
  · rw [h]; exact ⟨_, rfl, rfl, rfl, rfl⟩
  · rw [h]; exact ⟨_, rfl, rfl, rfl, rfl⟩
  · rw [h]; exact ⟨_, rfl, rfl, rfl, rfl⟩
  · rw [h]
    simp only [Device.passAt, Device.passOutput]
    split
    · exact ⟨_, rfl, rfl, rfl, rfl⟩
    · exact plain
  · rw [h]; exact ⟨_, rfl, rfl, rfl, rfl⟩
  · rw [h]; exact plain
  · rw [h]; exact ⟨_, rfl, rfl, rfl, rfl⟩
  · rw [h]
    simp only [Device.passAt, Device.passResultHead]
    split
    · split
      · exact ⟨_, rfl, rfl, rfl, rfl⟩
      · exact plain
    · exact plain
  · rw [h]
    simp only [Device.passAt, Device.passResultRest]
    split
    · exact ⟨_, rfl, rfl, rfl, rfl⟩
    · exact plain
  · omega
  · omega
  · omega

end Sys2Proof.Machine
end

