-- ==== Sys2Proof/Laws/Step.lean ====
section
/-! SUPPORT. The induction principle for invariants of a step: what each operation that a row of the table is built from keeps is kept by
every command, and so by every step. -/

namespace Sys2Proof.Machine

/-- What an invariant is shown for, once each: the events and what they hand on, a hand-off, the operations of the Ring Port, a tick's beginning, a passing
that ends a break delay, the first acceptance of a line, and the two edges of RSTN. -/
structure KeptByOperations (P : Device → Prop) : Prop where
  event : KeptByEvent P fun _ => True
  command : ∀ d tag c, P d → P (d.handOff tag c)
  forgetBreak : ∀ d, P d → P d.forgetBreak
  beginFrame : ∀ d w, P d → P (d.beginFrame w)
  word : ∀ d w p, P d → P (Device.passAt d w p)
  frame : ∀ d f, P d → P (d.setFrame f)
  close : ∀ d g, P d → P (d.closeFrame g)
  delay : ∀ d a, P d → d.mailbox.ready = true → d.actuators[a].phase = .delaying → P (d.passActuator a)
  firstMark : ∀ d l, P d → P (d.runEffect (d.firstAcceptance { d.lines with mark := some l } .markLevel l))
  firstWbrk : ∀ d l, P d → P (d.runEffect (d.firstAcceptance { d.lines with wbrk := some l } .wbrkLevel l))
  rise : ∀ d straps, P d → P (d.rstnRises straps)
  fall : ∀ d, P d → P d.rstnFalls

namespace KeptByOperations

variable {P : Device → Prop}

theorem job (k : KeptByOperations P) (d : Device) (j : Job) (h : P d) : P (d.runJob j) := Device.runJob_keeps k.event d j h trivial

theorem roots (k : KeptByOperations P) (d : Device) (rs : List Job) (h : P d) : P (d.runRoots id rs) :=
  Device.runRoots_keeps k.event (fun _ h => h) d rs h fun _ _ => trivial

theorem complete (k : KeptByOperations P) (d : Device) (g : Bool) (h : P d) : P (d.complete g) :=
  Device.runRoots_keeps k.event
    (fun d hd => by
      unfold Device.handStaged
      split
      · exact k.command _ _ _ hd
      · exact hd)
    _ _ (k.close _ _ h) fun _ _ => trivial

theorem occur (d : Device) (b : Bool) (a : Device) (h : P d) (h' : P a) : P (d.occur b a) := by
  unfold Device.occur; split <;> assumption

theorem words (k : KeptByOperations P) (ws : List Word) (d : Device) (h : P d) : P (d.passWords ws) := by
  induction ws generalizing d with
  | nil => exact h
  | cons w ws ih => exact ih _ (k.word _ _ _ h)

theorem endFrame (k : KeptByOperations P) (d : Device) (b : Bool) (h : P d) : P (d.endFrame b) := by
  unfold Device.endFrame
  split
  · exact h
  · exact k.frame _ _ h
  all_goals
    split
    · exact k.complete _ _ h
    · exact k.frame _ _ h

/-- Every command keeps the invariant. -/
theorem exec (k : KeptByOperations P) (i : Instr) (s t : State) (h : P s.dev) (he : Machine.exec i s = .next t) : P t.dev := by
  have word : ∀ sk w p, P ((s.dev.passWords sk).passAt w p) := fun sk w p => k.word _ _ _ (k.words _ _ h)
  cases i <;> (simp only [Machine.exec] at he)
  case powerOnReset st => cases he; exact k.rise _ _ h
  case rstnFall => cases he; exact k.fall _ h
  case nonCycleFrame w0 rest =>
    simp only [execNonCycleFrame, State.become] at he; cases he
    dsimp only
    split
    · exact k.endFrame _ _ (k.words _ _ (k.beginFrame _ _ h))
    all_goals exact k.words _ _ (k.beginFrame _ _ h)
  case cycleFrameW0 w0 => cases he; exact k.beginFrame _ _ h
  case breakWordPassing sk w =>
    simp only [execBreakWordPassing, State.become] at he; cases he
    dsimp only
    split
    · exact word sk w .breakWord
    · exact word sk w _
  case stageInputSlot sk w =>
    simp only [execStageInputSlot, State.become] at he; cases he
    dsimp only
    split
    · rename_i c _; exact word sk w (.input c)
    · exact word sk w _
  case stageControlSlot sk w =>
    simp only [execStageControlSlot, State.become] at he; cases he
    dsimp only
    split
    · exact word sk w .control
    · exact word sk w _
  case outputSlotPassing sk w =>
    simp only [execOutputSlotPassing, State.become] at he; cases he
    dsimp only
    split
    · rename_i a _; exact word sk w (.output a)
    · exact word sk w _
  case statusSlotPassing sk w =>
    simp only [execStatusSlotPassing, State.become] at he; cases he
    dsimp only
    split
    · exact word sk w .status
    · exact word sk w _
  case stageCommandArea sk a => cases he; exact k.words _ _ (k.words _ _ h)
  case resultAreaPassing sk w =>
    simp only [execResultAreaPassing, State.become] at he; cases he
    dsimp only
    split
    · exact word sk w .resultHead
    · exact word sk w _
  case crcPassing sk a b =>
    simp only [execCrcPassing, State.become] at he; cases he
    dsimp only
    split
    · exact k.word _ _ _ (word sk a .crcHigh)
    · exact k.words _ _ (k.words _ _ h)
  case cycleCompletion sk l => cases he; exact k.endFrame _ _ (k.words _ _ h)
  case captureWindowExpiry g => cases he; exact occur _ _ _ h (k.job _ _ h)
  case tick => cases he; exact occur _ _ _ h (k.roots _ _ (k.forgetBreak _ h))
  case channelAgeStale c => cases he; exact occur _ _ _ h (k.job _ _ h)
  case channelAgeFailed c => cases he; exact occur _ _ _ h (k.job _ _ h)
  case cycleTimeoutExpiry => cases he; exact occur _ _ _ h (k.job _ _ h)
  case purgeExpiry z => cases he; exact occur _ _ _ h (k.job _ _ h)
  case confirmationExpiry => cases he; exact occur _ _ _ h (k.job _ _ h)
  case timerExpiry t => cases he; exact occur _ _ _ h (k.job _ _ h)
  case markLevelChange l => cases he; exact occur _ _ _ h (k.roots _ _ h)
  case wbrkLevelChange l => cases he; exact occur _ _ _ h (k.job _ _ h)
  case deferredTermSettle => cases he; exact occur _ _ _ h (k.roots _ _ h)
  case actuatorDelayExpiry a =>
    simp only [execActuatorDelayExpiry, State.become] at he; cases he
    dsimp only [Device.occur]
    split
    · rename_i hh
      simp only [Device.delayExpires, Actuator.delayEnds, Bool.and_eq_true, beq_iff_eq] at hh
      exact k.delay _ _ h hh.2.1.1 hh.2.2.1
    · exact h
  case markFirstAcceptance l => cases he; exact occur _ _ _ h (k.firstMark _ _ h)
  case wbrkFirstAcceptance l => cases he; exact occur _ _ _ h (k.firstWbrk _ _ h)
  all_goals (cases he; exact k.command _ _ _ h)

/-- Every step keeps the invariant. -/
theorem step (k : KeptByOperations P) (s t : State) (h : P s.dev) (hs : Machine.step s = .next t) : P t.dev := by
  unfold Machine.step at hs
  split at hs
  · cases hs; exact h
  · exact k.exec _ _ _ (by exact h) hs

end KeptByOperations

end Sys2Proof.Machine
end

