-- ==== Sys2Proof/Tests/Slice0.lean ====
section
/-! SUPPORT. Tests: the ill-formed commands that the checks refuse, worked passages of the specification on small states, and for every
statement of Certificates/Slice0/Obligations.lean a concrete state and operands that meet its hypotheses, clause by clause. -/

namespace Sys2Proof.Tests

set_option Elab.async false

open Sys2Proof Sys2Proof.Machine

/-! ## Small states -/

/-- The device just after power-on with node address 6: UNCONFIGURED, with a free Mailbox. -/
def fresh : Device := Device.atPowerOn 6

/-- The same device in READY. -/
def ready : Device := { fresh with mailbox := { nodeAddress := 6, ready := true } }

/-- A state with an empty queue. -/
def st (d : Device) : State := { dev := d, pending := [] }

/-- The device after a command. -/
def after (d : Device) (i : Instr) : Device :=
  match exec i (st d) with
  | .next s => s.dev
  | .fault _ | .refused _ => d

/-- The code and data of the result that a command leaves. -/
def answer (d : Device) (i : Instr) : Option (ResultCode × List Word) :=
  (after d i).mailbox.pending.map fun r => (r.code, r.data.toList)

/-- The kinds, sources and values of the events that a command leaves in the queue. -/
def eventsOf (d : Device) : List (EventKind × Nat × Int) := d.events.records.map fun e => (e.kind, e.source.toNat, e.value.toInt)

/-- A device inside a CYCLE frame of slot count `n`, with word `p` to come. -/
def inFrame (d : Device) (n p : Nat) : Device := { d with port := { d.port with frame := { passage := .cycle n, position := p } } }

/-- A device whose frame needs only its end to be a good one of 16 slots. -/
def endOfGood (d : Device) : Device :=
  { d with port := { d.port with frame := { passage := .cycle 16, position := 50, crcGood := true } } }

/-- A Slot Map with one entry of each role: slot 5 INPUT channel 3, slot 0 CONTROL, slot 15 STATUS, slot 127 and 14 OUTPUT. -/
def someMap : SlotMap :=
  { entries := ((((((SlotMap.entries {}).set 0 (some { slot := 5, role := .input 3 })).set 1 (some { slot := 0, role := .control })).set 2
      (some { slot := 15, role := .status })).set 3 (some { slot := 127, role := .output 2 })).set 63
      (some { slot := 14, role := .output 15 })) }

/-- `ready` with that Slot Map. -/
def bound : Device := { ready with slotMap := someMap }

/-- The curve of these breakpoints. -/
def curve (ps : List Breakpoint) : Curve := { length := ps.length, entries := Vector.ofFn fun i => ps.getD i {} }

/-! ## Well-formed commands -/

theorem test_wellFormed_accepts : (Instr.cycleFrameW0 0x5C10).wellFormed = true ∧ (Instr.nonCycleFrame 0x5D10 []).wellFormed = true
    ∧ (Instr.unknownCommand 1 0).wellFormed = true ∧ (Instr.unknownCommand 1 20).wellFormed = true
    ∧ (Instr.writeSlotMap 1 65 0 0 0).wellFormed = true ∧ (Instr.writeCaptureConfig 1 0 0 1 1 #v[0, 0, 0, 0]).wellFormed = true := by
  decide

/-- R126: a WRITE_TABLE TERM binding code outside 0 to 6 is BAD_PARAM, and 0 is accepted. -/
theorem test_term_binding_range : answer fresh (.writeTerm 9 0 0 0 0 0 0 7 0 0) = some (.badParam, List.replicate 13 0)
    ∧ answer fresh (.writeTerm 9 0 0 0 0 0 0 0 0 0) = some (.ok, List.replicate 13 0) := by decide +kernel

theorem test_wellFormed_refuses_w0_of_another_kind : (Instr.cycleFrameW0 0x5D10).wellFormed = false := by decide

theorem test_wellFormed_refuses_cycle_as_other_frame : (Instr.nonCycleFrame 0x5C10 []).wellFormed = false := by decide

theorem test_wellFormed_refuses_catalogue_code_as_unknown :
    (Instr.unknownCommand 1 1).wellFormed = false ∧ (Instr.unknownCommand 1 19).wellFormed = false := by decide

theorem test_wellFormed_refuses_link_record_as_entry : (Instr.writeSlotMap 1 64 0 0 0).wellFormed = false := by decide

theorem test_wellFormed_refuses_post_count_as_config :
    (Instr.writeCaptureConfig 1 1 0 1 1 #v[0, 0, 0, 0]).wellFormed = false := by decide

/-! ## Worked passages -/

/-- Chapter 2, "Scaling and clamping": C7, raw 1500, 2800, −100 and −3. -/
theorem test_sample_scaling :
    let c : Channel := { gain := 5120, offset := -400, lo := 0, hi := 3000 }
    [1500, 2800, -100, -3].map (fun raw => ((c.takeAnalog raw).1.value, (c.takeAnalog raw).1.limited))
      = [(1475, false), (3000, true), (0, true), (0, true)] ∧ c.scale (-3) = -403 := by decide +kernel

/-- Chapter 2, "Filter and HI comparator": C2 with alpha 64, its six samples. -/
theorem test_sample_filter_and_hi :
    let c : Channel := { alpha := 64, hiLimit := 2000, loLimit := 1500, hyst := 30, enableHi := true }
    let run := [1980, 2040, 2060, 1990, 1940, 1900].foldl (fun (p : Channel × List Int × List (EventKind × Word)) raw =>
      let r := p.1.takeAnalog raw
      (r.1, p.2.1 ++ [r.1.filtered], p.2.2 ++ r.2)) (c, [], [])
    run.2 = ([1980, 1995, 2011, 2006, 1990, 1968], [(.channelHi, 1), (.channelHi, 0)]) := by decide +kernel

/-- Chapter 2, "Loss and return of a channel": the ticks to age 60 and to age 200, and the sample 1912. -/
theorem test_channel_loss_and_return :
    let c : Channel := { hiLimit := 2000, loLimit := 1500, hyst := 30, enableHi := true, enableStale := true, failState := true
                         staleLimit := 60, failLimit := 200, filtered := 1968, age := 59, validity := .fresh }
    c.tick.2 = [(.channelStale, 1968)]
    ∧ ({ c with age := 199, validity := .stale } : Channel).tick.2 = [(.channelFailed, 2), (.channelHi, 1)]
    ∧ (({ c with age := 199, validity := .stale } : Channel).tick.1.takeSample 1912).2 = [(.channelFresh, 3), (.channelHi, 0)] := by
  decide +kernel

/-- Chapter 3, "A ramp seen by the tracker": the arrivals of 420 and of 450. -/
theorem test_speed_ramp :
    let s : Speed := { leadFactor := 16, history := List.replicate 8 400, v := 400, lead := 400, state := .steady }
    let at420 := [405, 410, 415, 420].foldl Speed.takeSample s
    let at450 := [426, 432, 438, 444, 450].foldl Speed.takeSample at420
    (at420.a, at420.lead, at420.state) = (20, 460, .accel) ∧ (at450.a, at450.lead, at450.history.headD 0) = (40, 530, 410) := by
  decide +kernel

/-- Chapter 4, "Lookups in a rising curve" and "A falling segment". -/
theorem test_lookup :
    let rising := curve [⟨0, 1500, 1000⟩, ⟨300, 1800, 3000⟩, ⟨600, 2100, 5200⟩, ⟨900, 2300, 7000⟩]
    let falling := curve [⟨0, 300, 2000⟩, ⟨500, 220, 6000⟩, ⟨1000, 180, 9000⟩]
    [0, 300, 530, 899, 900, 1200].map rising.lookup
        = [(1500, 1000), (1800, 3000), (2030, 4686), (2299, 6994), (2300, 7000), (2300, 7000)]
      ∧ falling.lookup 333 = (247, 4664) ∧ falling.lookup 740 = (201, 7440) := by decide +kernel

/-- Chapter 5, "A tracking update and its bumpless rebase": Z3's update, then its rebase under the new curve (target 2030, F 5000). -/
theorem test_zone_tracking_and_rebase :
    let flat := fun f : Int => curve [⟨0, 2030, f⟩, ⟨1, 2030, f⟩]
    let z : Zone := { enabled := true, spMin := 1200, spMax := 2600, rampStep := 25, kp := 512, ki := 300, outMin := 500, outMax := 9500
                      slewMax := 150, overBand := 150, mode := .track, w := 1990, i := 820, u := 5700 }
    let z1 := z.compute .dryer { m := 1968, lead := 530, armed := true, moving := true, curve := flat 4686 }
    let z2 := ({ z1 with bumpless := true } : Zone).compute .dryer
      { m := 1983, lead := 530, armed := true, moving := true, curve := flat 5000 }
    (z1.w, z1.i, z1.u, z1.limitDir) = (2015, 833, 5850, .up) ∧ (z2.w, z2.i, z2.u, z2.limitDir) = (2030, 474, 5850, .none) := by
  decide +kernel

/-- Chapter 5, "A chill section": Z9. -/
theorem test_zone_chill :
    let z : Zone := { enabled := true, spMin := 150, spMax := 400, rampStep := 10, kp := 800, ki := 200, outMin := 1000, outMax := 9000
                      slewMax := 200, overBand := 80, mode := .track, w := 250, i := 300, u := 5120 }
    let z1 := z.compute .chill { m := 262, lead := 333, armed := true, moving := true, curve := curve [⟨0, 247, 4664⟩, ⟨1, 247, 4664⟩] }
    (z1.w, z1.i, z1.u) = (247, 302, 5153) := by decide +kernel

/-- Chapter 6, "A length counter in two stages": T1 one mark short of its N, T2 counting T1. -/
def lengthCounter : Device :=
  (({ ready with lines := { ready.lines with mark := some false } } : Device).setTimer 1
    { mode := .count, clock := .mark, n := 2000, count := 1999 }).setTimer 2 { mode := .count, clock := .cascade, n := 65535, count := 4 }

/-- Chapter 6, "A length counter in two stages": T1's terminal event clocks T2; R107: not before the MARK level has been accepted. -/
theorem test_timer_cascade :
    let t := after lengthCounter (.timerExpiry 1)
    let silent : Device := { lengthCounter with lines := ready.lines }
    t.timers[1].count = 0 ∧ t.timers[1].output = true ∧ t.timers[2].count = 5 ∧ t.timers[2].output = false
      ∧ after silent (.timerExpiry 1) = silent := by decide +kernel

/-- Chapter 7, "A feedback that the terms break": Z4 enters HOLD and leaves it, and L3 is deferred. -/
theorem test_term_feedback :
    let d : Device := { ready with
      terms := ready.terms.set 3 { a := .zoneHold 4, table := 1, binding := .zoneHold, zoneMask := 0x10, value := true }
      zones := ready.zones.set 4 { enabled := true, measChannel := 4 }
      channels := ready.channels.set 4 { validity := .fresh, filtered := 300 } }
    let t := after d (.setZoneMode 1 0x10 1)
    t.zones[4].mode = .preheat ∧ t.terms[3].value = false ∧ t.terms[3].deferred = true
      ∧ eventsOf t = [(.zoneHold, 4, 2), (.zoneResume, 4, 1)] := by decide +kernel

/-- R1 Note 1: the CRC-32 of the bytes "12345678", computed apart from the model (the same computation gives FC891918 hexadecimal for
"123456789", the published check value of this polynomial, preset and complement without reflection). -/
theorem test_crc : ~~~ ([0x3132, 0x3334, 0x3536, 0x3738].foldl crcWord (BitVec.allOnes 32)) = 0xB61C3D04 := by decide +kernel

/-- R13: matching CRC words make the frame good and a wrong one does not; the outgoing CRC leaves complemented then. -/
theorem test_crc_words :
    let d := inFrame ready 16 48
    let run := fun low : Word => (after d (.crcPassing [] 0 low)).port.frame
    (run 0).crcGood = true ∧ (run 0).ringOut = [0, 0] ∧ (run 1).crcGood = false ∧ (run 1).ringOut = [0xFFFF, 0xFFFF] := by
  decide +kernel

/-- R14, R17, R19: a good completion locks the link, a bad one raises the bad run and FRAME_BAD, the link stays SEARCHING. -/
theorem test_completions :
    let good := after (endOfGood ready) (.cycleCompletion [] false)
    let bad := after (endOfGood ready) (.cycleCompletion [] true)
    good.port.link = .locked ∧ good.port.badRun = 0 ∧ eventsOf good = [(.linkLocked, 0, 0)]
      ∧ bad.port.link = .searching ∧ bad.port.badRun = 1 ∧ eventsOf bad = [(.frameBad, 0, 1)] := by decide +kernel

/-- R11: a BROKEN device adds its membership groups to the assert byte and clears none. -/
theorem test_break_word :
    let d : Device := { inFrame ready 24 2 with monitor := { state := .broken, membership := 0x12 } }
    (after d (.breakWordPassing [] 0x0201)).port.frame.ringOut = [0x0213] := by decide +kernel

/-- R190: the urgent order takes the oldest records of the highest class held, and leaves the others in order. -/
theorem test_read_events_urgent :
    let e := fun (k : EventKind) (n : Byte) => ({ kind := k, source := n, stamp := 7, value := 1 } : EventRecord)
    let d : Device := { ready with events := { records := [e .linkLocked 0, e .breakSuspect 3, e .channelHi 2, e .breakDeclared 1] } }
    let t := after d (.readEventsUrgent 9)
    t.events.records = [e .linkLocked 0, e .channelHi 2]
      ∧ t.mailbox.pending.map (fun r => (r.code, r.tag, r.data.toList.take 9))
        = some (.ok, 9, [0x0202, packBytes (BitVec.ofNat 8 (EventKind.breakSuspect).code) 3, 0, 7, 1,
            packBytes (BitVec.ofNat 8 (EventKind.breakDeclared).code) 1, 0, 7, 1]) := by decide +kernel

/-- R186: the items of CONFIGURE_DONE, in order, and READY once all pass. -/
theorem test_configure_done :
    let mapped : Device := { fresh with slotMap := { entries := (((SlotMap.entries {}).set 0 (some { slot := 0, role := .control })).set 1
      (some { slot := 1, role := .input 0 })) } }
    let fast : Device := { mapped with channels := fresh.channels.set 0 { kind := .speed } }
    let chosen : Device := { fast with capture := { channels := [0] } }
    [fresh, mapped, fast].map (fun d => (answer d (.configureDone 1)).map fun r => (r.1, r.2.take 3))
        = [some (.configInvalid, [1, 0, 0]), some (.configInvalid, [3, 0, 0]), some (.configInvalid, [5, 0, 0])]
      ∧ (after chosen (.configureDone 1)).mailbox.ready = true := by decide +kernel

/-- R180, R182: a code outside the catalogue is answered with its own code and tag. -/
theorem test_unknown_command :
    (after fresh (.unknownCommand 0x2A 0x55)).mailbox.pending.map (fun r => (r.code, r.tag, r.command))
      = some (.unknownCommand, 0x2A, 0x55) := by decide +kernel

/-! ## Orders of events that come together (log 3, log 15) -/

/-- A device whose next choices are these. -/
def choosing (d : Device) (xs : List Nat) : Device := { d with choices := { d.choices with schedule := xs } }

/-- The end of a good frame that brings this sample to C0. -/
def delivering0 (d : Device) (w : Word) : Device :=
  { d with port := { d.port with link := .locked, frame := {
      passage := .cycle 16, position := 50, crcGood := true, staging := { inputs := (Staging.inputs {}).set 0 (some w) } } } }

/-- R85: Z0 in HOLD for its STALE channel C0, which a sample returns and takes above the limit by which L0 holds Z0. The return first: the zone
resumes and is held again; the demand first: it stays in HOLD. -/
theorem test_return_and_demand :
    let d := delivering0 (((ready.setChannel 0 { validity := .stale, hiLimit := 2000 }).setZone 0
      { enabled := true, mode := .hold, returnMode := .preheat }).setTerm 0
      { a := .chanHi 0, table := 0xAAAA, binding := .zoneHold, zoneMask := 1 }) 2500
    let run := fun xs => after (choosing d xs) (.cycleCompletion [] false)
    eventsOf (run [0, 0, 1]) = [(.zoneResume, 0, 1), (.zoneHold, 0, 2)] ∧ eventsOf (run [0, 1, 0]) = []
      ∧ (run [0, 0, 1]).zones[0].mode = .hold ∧ (run [0, 1, 0]).zones[0].mode = .hold := by decide +kernel

/-- R103: at one tick the zones raise in ascending order, whichever channel went STALE first: Z0 measures C5, Z1 measures C2. -/
theorem test_zone_events_ascend :
    let c : Channel := { validity := .fresh, age := 999 }
    let d := (((ready.setChannel 5 c).setChannel 2 c).setZone 0 { enabled := true, measChannel := 5, mode := .preheat }).setZone 1
      { enabled := true, measChannel := 2, mode := .preheat }
    [[0, 0, 0, 0], [0, 2, 0, 0], [1, 0, 0, 0], [2, 2, 0, 0]].map (fun xs => eventsOf (after (choosing d xs) .tick))
      = List.replicate 4 [(.zoneHold, 0, 1), (.zoneHold, 1, 1)] := by decide +kernel

/-- Z0 in PREHEAT on the FRESH channel C1, held by L0 while C0 is FAILED, and Z5 in PREHEAT on C0. -/
def sharedFailure : Device :=
  ((((ready.setTerm 0 { a := .chanFailed 0, table := 0xAAAA, binding := .zoneHold, zoneMask := 1 }).setChannel 0
    { staleLimit := 5001, validity := .fresh, age := 4999 }).setChannel 1 { validity := .fresh }).setZone 0 { enabled := true, measChannel := 1, mode := .preheat }).setZone 5
    { enabled := true, measChannel := 0, mode := .preheat }

/-- R103: one failure of a channel takes a lower zone to HOLD by its demand and a higher one to FAULT: in every order of choice the lower raises
first. -/
theorem test_zone_events_ascend_by_demand :
    [[0, 0, 0, 0], [1, 0, 0, 0], [0, 1, 0, 0], [1, 1, 1, 1]].map (fun xs =>
        (eventsOf (after (choosing sharedFailure xs) (.channelAgeFailed 0))).filter fun e => e.1 != .channelFailed && e.1 != .channelHi && e.1 != .channelLo)
      = List.replicate 4 [(.zoneHold, 0, 2), (.zoneFault, 5, 1)] := by decide +kernel

/-- The end of a good frame that brings C0 the sensor-fault code and C1 a value above every band. -/
def faultAndHeat : Device :=
  { ready with port := { ready.port with link := .locked, frame := {
      passage := .cycle 16, position := 50, crcGood := true
      staging := { inputs := ((Staging.inputs {}).set 0 (some sensorFault)).set 1 (some 4000) } } } }

/-- `faultAndHeat` with one zone in PREHEAT on C0 and another on C1, both channels FRESH. -/
def deliveredTo (onFault onHeat : Fin 12) : Device :=
  ((((faultAndHeat.setChannel 0 { validity := .fresh, hiLimit := 4500 }).setChannel 1 { validity := .fresh, hiLimit := 4500 }).setZone onFault
    { enabled := true, measChannel := 0, mode := .preheat }).setZone onHeat { enabled := true, measChannel := 1, mode := .preheat })

/-- The ZONE_FAULT events of that completion under each of four schedules. -/
def faultsOf (d : Device) : List (List (Nat × Nat)) :=
  [[0, 0, 0, 0, 0, 0], [1, 0, 0, 0, 0, 0], [0, 1, 0, 0, 0, 0], [1, 1, 1, 1, 1, 1]].map fun xs =>
    ((after (choosing d xs) (.cycleCompletion [] false)).events.records.filter fun e => e.kind == .zoneFault).map fun e =>
      (e.source.toNat, e.value.toNat)

/-- R92, R103: at one delivery a channel's failure and an over-temperature fault two zones: the lower zone raises first, whichever it is. -/
theorem test_zone_events_ascend_at_a_delivery :
    faultsOf (deliveredTo 1 3) = List.replicate 4 [(1, 1), (3, 2)] ∧ faultsOf (deliveredTo 3 1) = List.replicate 4 [(1, 2), (3, 1)] := by
  decide +kernel

/-- The end of a good frame that brings C1 a value above every band: Z3 in PREHEAT measures it, and Z0, the last marked zone of a commit, measures C0,
which the frame brings 500. -/
def rebaseAndHeat : Device :=
  let d := { ready with
    port := { ready.port with link := .locked, frame := {
      passage := .cycle 16, position := 50, crcGood := true
      staging := { inputs := ((Staging.inputs {}).set 0 (some 500)).set 1 (some 4000) } } }
    mailbox := { ready.mailbox with executing := some { code := 6, tag := 1 } }
    profile := { ready.profile with active := ready.profile.active.set 0 (curve [⟨0, 500, 0⟩, ⟨1500, 500, 0⟩]), commit := some { marked := 1 } } }
  (((d.setChannel 0 { validity := .fresh }).setChannel 1 { validity := .fresh }).setZone 0
    { enabled := true, measChannel := 0, mode := .track, bumpless := true }).setZone 3 { enabled := true, measChannel := 1, mode := .preheat }

/-- R63, R92, R188: the rebase of Z0, which raises COMMIT_DONE, and the ZONE_FAULT of Z3's update, of one delivery, in either order. -/
theorem test_updates_of_one_delivery :
    let run := fun xs => ((after (choosing rebaseAndHeat xs) (.cycleCompletion [] false)).events.records.filter fun e =>
      e.kind == .commitDone || e.kind == .zoneFault).map fun e => (e.kind, e.value.toNat)
    run [0, 0, 0, 0, 0, 0] = [(.commitDone, 1), (.zoneFault, 2)] ∧ run [1, 0, 0, 0, 0, 0] = [(.zoneFault, 2), (.commitDone, 1)] := by
  decide +kernel

/-- R82, R92: Z3's ZONE_FAULT holds Z0 by L0 at one delivery: after Z0's update, which moves its working setpoint, or before it. -/
theorem test_fault_and_update_of_a_lower_zone :
    let d := (({ rebaseAndHeat with profile := { rebaseAndHeat.profile with commit := none } } : Device).setZone 0
      { enabled := true, measChannel := 0, mode := .preheat, preheatSetpoint := 500, spMax := 2000 }).setTerm 0
        { a := .zoneFault 3, table := 0xAAAA, binding := .zoneHold, zoneMask := 1 }
    let run := fun xs => (after (choosing d xs) (.cycleCompletion [] false)).zones[0]
    ((run [0, 0, 0, 0, 0, 0]).mode, (run [0, 0, 0, 0, 0, 0]).w) = (.hold, 10)
      ∧ ((run [1, 1, 0, 0, 0, 0]).mode, (run [1, 1, 0, 0, 0, 0]).w) = (.hold, 0) := by decide +kernel

/-- R173: a term that a delivered sample raises, and the recording of the same completion, in either order: a PRE buffer freezes with the record of
this completion or without it. -/
theorem test_trigger_and_recording :
    let d := delivering0 ((({ ready with capture := { channels := [0], state := .running } } : Device).setChannel 0 { hiLimit := 2000 }).setTerm 0
      { a := .chanHi 0, table := 0xAAAA, binding := .captureTrigger }) 2500
    let run := fun xs => after (choosing d xs) (.cycleCompletion [] false)
    eventsOf (run [1]) = [(.captureTriggered, 3, 0), (.captureFrozen, 1, 0)]
      ∧ eventsOf (run [0, 0]) = [(.captureTriggered, 3, 1), (.captureFrozen, 1, 1)] := by decide +kernel

/-- R114: with every unit clocked by CASCADE no clock arises. -/
theorem test_timer_ring_of_cascades :
    let d : Device := { ready with timers := Vector.replicate 6 { mode := .count, clock := .cascade } }
    after d (.timerExpiry 0) = d := by decide +kernel

/-- R119: a WRITE_TIMER that moves T0 to the CYCLE clock, with the completion that brings it: taken first, the new unit takes that clock; taken
last, it takes none. -/
theorem test_reset_write_and_clock :
    let d := (endOfGood fresh).setTimer 0 { mode := .count, n := 9, count := 3 }
    let d := { d with port := { d.port with link := .locked, frame := { d.port.frame with
      staging := { command := [6, 3, 7, 0x0500, 4, 0, 0, 1, 9, 0, 0, 0, 0] } } } }
    let run := fun xs => (after (choosing d xs) (.cycleCompletion [] false)).timers[0]
    (run [6]).count = 1 ∧ (run [0, 0, 0, 0, 0, 0]).count = 0 ∧ (run [6]).clock = .cycle := by decide +kernel

/-- An ARMED Monitor with an enabled WBRK source, its line low. -/
def watching : Device := { ready with monitor := { state := .armed, wbrkEnable := true }, lines := { ready.lines with wbrk := some false } }

/-- What a TRACK command for Z0 answers: the code and, where it is refused, zone, reason and mode. -/
def trackAnswer (d : Device) : Option (ResultCode × List Word) := (answer d (.setZoneMode 2 1 2)).map fun r => (r.1, r.2.take 3)

/-- `watching` with Z0 in PREHEAT, just after the line has declared the break. -/
def justBroken : Device := after (watching.setZone 0 { enabled := true, mode := .preheat, purgeTime := 5 }) (.wbrkLevelChange true)

/-- R80: a TRACK command just after a declaration at the WBRK line, which took Z0 from PREHEAT to PURGE, is refused with reason 3; after a further
tick or the start of a further frame the two no longer come together, and the reason is 1. -/
theorem test_track_after_declaration :
    justBroken.zones[0].mode = .purge ∧ trackAnswer justBroken = some (.transition, [0, 3, 4])
      ∧ trackAnswer (after justBroken .tick) = some (.transition, [0, 1, 4])
      ∧ trackAnswer (after justBroken (.cycleFrameW0 0x5C10)) = some (.transition, [0, 1, 4]) := by decide +kernel

/-- `watching` with Z0 in HOLD for this return, held by L0, which is true until the Monitor is BROKEN. -/
def heldUntilBreak (r : ReturnMode) : Device :=
  ((watching.setTerm 0 { a := .brk 2, table := 1, binding := .zoneHold, zoneMask := 1, value := true }).setChannel 0 { validity := .fresh }).setZone
    0 { enabled := true, mode := .hold, returnMode := r, purgeTime := 5 }

/-- Z0's code of its mode and its countdown after that declaration at the line, with this first choice, and the value of its ZONE_RESUME. -/
def freedByBreak (r : ReturnMode) (first : Nat) : List Nat :=
  let t := after (choosing (heldUntilBreak r) [first, 0, 0, 0]) (.wbrkLevelChange true)
  t.zones[0].mode.code :: t.zones[0].purgeCount :: (t.events.records.filter fun e => e.kind == .zoneResume).map fun e => e.value.toNat

/-- R84, R88, R144: a declaration that frees Z0 from HOLD by a hold demand that falls with (BREAK, 2). R88 first, and Z0 resumes into PURGE; the
demand first, and Z0 resumes into PREHEAT, from which R88 takes it to PURGE. For a return to TRACK R88 comes first. -/
theorem test_falling_demand_and_declaration :
    freedByBreak .preheat 0 = [4, 5, 4] ∧ freedByBreak .preheat 1 = [4, 5, 1] ∧ freedByBreak .track 0 = [4, 5, 4]
      ∧ freedByBreak .track 1 = [4, 5, 4] := by
  decide +kernel

/-- R81, R88, R92: a break word that declares, and the update of Z0 in TRACK above its band, of one completion: the update first, and the zone is in
FAULT; or the declaration first, and the zone purges; never an update between the declaration and the purge. -/
theorem test_update_and_declaration :
    let d := (delivering0 { ready with monitor := { state := .armed, membership := 1 } } 2500).setChannel 0 { validity := .fresh }
    let d := { d.setZone 0 { enabled := true, mode := .track, purgeTime := 5 } with
      port := { d.port with frame := { d.port.frame with staging := { d.port.frame.staging with breakWord := some 1 } } } }
    let run := fun xs => after (choosing d xs) (.cycleCompletion [] false)
    [[0, 0, 0], [1, 0, 0], [1, 1, 0], [1, 1, 1], [0, 1, 1]].map (fun xs => (eventsOf (run xs), (run xs).zones[0].mode))
      = List.replicate 2 ([(.zoneFault, 0, 2), (.breakDeclared, 0, 2)], .fault) ++ List.replicate 3 ([(.breakDeclared, 0, 2)], .purge) := by
  decide +kernel

/-- R114, R119: a completion's clock at T0 with a chain T1 to T5 behind it, and a command of that completion that resets T0 to the CASCADE clock: the
chain runs whole before the command or not at all, and T0 is no part of it. -/
theorem test_chain_and_command :
    let unit : Timer := { mode := .count, clock := .cascade, n := 1 }
    let d := endOfGood { fresh with timers := (Vector.replicate 6 unit).set 0 { unit with clock := .cycle } }
    let d := { d with port := { d.port with link := .locked, frame := { d.port.frame with
      staging := { command := [6, 3, 7, 0x0500, 4, 0, 0, 3, 1, 0, 0, 0, 0] } } } }
    let run := fun xs => (after (choosing d xs) (.cycleCompletion [] false)).timers.toList.map Timer.output
    [6 :: List.replicate 7 0, List.replicate 8 0, 0 :: List.replicate 7 1, 0 :: List.replicate 7 6].map run
      = List.replicate 6 false :: List.replicate 3 [false, true, true, true, true, true] := by decide +kernel

/-- R140: at one tick T0 makes the last SOFT_BREAK term fall and the confirmation countdown ends: the fall clears the suspicion first, or the expiry
declares while the term is true. -/
theorem test_fall_and_expiry :
    let d := ((({ ready with monitor := { state := .suspect, countdown := 1 } } : Device).setTimer 0
      { mode := .oneShot, counting := true, output := true }).setTerm 0
        { a := .timer 0, table := 0xAAAA, binding := .softBreak, eventFlag := true, value := true })
    let run := fun xs => eventsOf (after (choosing d xs) .tick)
    run [0, 0, 0, 0] = [(.breakDeclared, 0, 4), (.termChanged, 0, 0)] ∧ run [1, 0, 0, 0] = [(.termChanged, 0, 0), (.suspectCleared, 0, 0)]
      ∧ run [1, 1, 1, 1] = run [1, 0, 0, 0] := by decide +kernel

/-- An ARMED Monitor over a term L0 that reads this line, low, a unit T0 that L0 sets by its rise, and a term L1 that reads T0. -/
def chained (line : Cond) (first second : Binding) : Device :=
  (((({ watching with monitor := { state := .armed }, lines := { watching.lines with mark := some false } } : Device).setTerm 0
    { a := line, table := 0xAAAA, binding := first }).setTimer 0 { mode := .oneShot, input := .term 0 }).setTerm 1
      { a := .timer 0, table := 0xAAAA, binding := second })

/-- The events that four orders of choice leave. -/
def inFourOrders (d : Device) (i : Instr) : List (List (EventKind × Nat × Int)) :=
  [[0, 0, 0, 0], [1, 0, 0, 0], [0, 1, 0, 0], [1, 1, 1, 1]].map fun xs => eventsOf (after (choosing d xs) i)

/-- R138: one event raises the hard level by L0 and the soft level by L1, through a timer on L0, or the soft level first and then the hard one: in
no order does the Monitor pass through SUSPECT. -/
theorem test_hard_and_soft_of_one_event :
    inFourOrders (chained .markLevel .hardBreak .softBreak) (.markLevelChange true) = List.replicate 4 [(.breakDeclared, 0, 3)]
      ∧ inFourOrders (chained .markLevel .softBreak .hardBreak) (.markLevelChange true) = List.replicate 4 [(.breakDeclared, 1, 3)] := by
  decide +kernel

/-- R138: the WBRK line raises the hard level itself, and the soft level by a term, directly or through a timer. -/
theorem test_line_and_soft_of_one_event :
    let on := fun d : Device => { d with monitor := { d.monitor with wbrkEnable := true } }
    inFourOrders (on (chained .wbrkLevel .softBreak .none)) (.wbrkLevelChange true) = List.replicate 4 [(.breakDeclared, 0, 1)]
      ∧ inFourOrders (on (chained .wbrkLevel .none .softBreak)) (.wbrkLevelChange true) = List.replicate 4 [(.breakDeclared, 0, 1)] := by
  decide +kernel

/-- R125, R139, R140: two channels of one delivery are two events: C0 raises the soft level and C1 the hard one, in either order. -/
theorem test_hard_and_soft_of_two_events :
    let d := delivering0 (({ ready with monitor := { state := .armed } } : Device).setTerm 0
      { a := .chanHi 0, table := 0xAAAA, binding := .softBreak }) 2500
    let d := { d.setTerm 1 { a := .chanHi 1, table := 0xAAAA, binding := .hardBreak } with
      port := { d.port with frame := { d.port.frame with staging := { inputs := d.port.frame.staging.inputs.set 1 (some 2500) } } } }
    let d := (d.setChannel 0 { hiLimit := 2000 }).setChannel 1 { hiLimit := 2000 }
    let run := fun xs => (eventsOf (after (choosing d xs) (.cycleCompletion [] false))).map Prod.fst
    run [1, 0, 0, 0, 0] = [.breakDeclared] ∧ run [0, 0, 0, 0, 0] = [.breakSuspect, .breakDeclared] := by decide +kernel

/-- R138, R140: where the hard level rises only because the Monitor has entered SUSPECT, it does pass through SUSPECT. -/
theorem test_hard_by_suspect :
    inFourOrders ((chained .markLevel .softBreak .none).setTerm 2 { a := .brk 1, table := 0xAAAA, binding := .hardBreak }) (.markLevelChange true)
      = List.replicate 4 [(.breakSuspect, 0, 5000), (.breakDeclared, 2, 3)] := by decide +kernel

/-- R131, R188: a link that is lost drops the permit and changes a term that reads it: LINK_LOST is raised first, the other two in either order. -/
theorem test_permit_and_term :
    let d := ({ ready with permit := .asserted, port := { link := .locked, timeoutCountdown := 1, permitRequest := true } } : Device).setTerm 0
      { a := .linkLocked, table := 0xAAAA, eventFlag := true, value := true }
    let run := fun xs => eventsOf (after (choosing d xs) .cycleTimeoutExpiry)
    run [0] = [(.linkLost, 0, 1), (.permitDropped, 0, 2), (.termChanged, 0, 0)]
      ∧ run [1] = [(.linkLost, 0, 1), (.termChanged, 0, 0), (.permitDropped, 0, 2)] := by decide +kernel

/-! ## Witnesses: the machine, RSTN and the ring

One theorem for each statement that has hypotheses, under the statement's name: a concrete state and operands that meet them, for each
clause, at a boundary value where the clause has a range. -/

/-- `ready` with a command executing: a commit that waits for Z0. -/
def executing : Device :=
  { ready with
    mailbox := { ready.mailbox with executing := some { code := 6, tag := 1 } }
    profile := { commit := some { marked := 1 } }
    zones := ready.zones.set 0 { mode := .track, bumpless := true } }

/-- A pending result. -/
def someResult : MailResult := { code := .ok, tag := 7, command := 1, data := Vector.replicate 13 5 }

/-- `bound` with a result pending. -/
def delivering : Device := { bound with mailbox := { bound.mailbox with pending := some someResult } }

theorem fresh_free : (st fresh).dev.Free := ⟨by decide +kernel, by decide +kernel⟩

theorem ready_free : (st ready).dev.Free := ⟨by decide +kernel, by decide +kernel⟩

theorem bound_free : (st bound).dev.Free := ⟨by decide +kernel, by decide +kernel⟩

theorem witness_StepRunsTheFrontCommand :
    ({ dev := fresh, pending := [.tick, .rstnFall] } : State).pending = .tick :: [.rstnFall] ∧ (st fresh).pending = [] := by decide +kernel

theorem witness_MailboxTakesNothingWhileBusy :
    (Instr.identify 1).waitsForMailbox = true ∧ (Instr.unknownCommand 1 0xFF).waitsForMailbox = true
      ∧ executing.mailbox.executing.isSome = true ∧ delivering.mailbox.pending.isSome = true
      ∧ (Device.atPowerOn 0).mailbox.nodeAddress = 0 := by decide +kernel

theorem witness_PowerOnResetValues :
    (st fresh).dev.port.frame.passage = .idle ∧ (st (inFrame fresh 128 1)).dev.port.frame.passage ≠ .idle := by decide +kernel

theorem witness_RstnLowAndOtherFramesOnlyForward :
    (st fresh).dev.port.frame.passage = .idle ∧ (inFrame fresh 16 48).port.frame.passage ≠ .idle
      ∧ (after (inFrame fresh 16 48) .rstnFall).lines.rstn = false
      ∧ (after (inFrame fresh 16 48) .rstnFall).port.frame.passage ≠ .idle
      ∧ frameKind 0x5B10 ≠ cycleKind ∧ frameKind 0x5D10 ≠ cycleKind := by decide +kernel

/-- R2, R22: the words of a row leave as received while RSTN is low, and a CYCLE frame that begins then is only forwarded. -/
theorem test_rstn_low_forwards :
    let low := after (inFrame bound 16 1) .rstnFall
    low.lines.rstn = false ∧ low.port.frame.passage ≠ .idle
      ∧ (after low (.breakWordPassing [9] 0x0102)).port.frame.ringOut = [9, 0x0102]
      ∧ (after low (.cycleFrameW0 0x5C10)).port.frame.passage = .transparent := by decide +kernel

theorem witness_RstnLow_command : ∀ straps, Instr.tick ≠ .powerOnReset straps := by decide +kernel

theorem witness_FirstWordStartsTheFrame :
    (st bound).dev.lines.rstn = true ∧ [0x5C10, 0x5C80, 0x5C0F, 0x5C81].map frameKind = List.replicate 4 cycleKind
      ∧ (16 ≤ slotCount 0x5C10 ∧ slotCount 0x5C10 ≤ 128) ∧ (16 ≤ slotCount 0x5C80 ∧ slotCount 0x5C80 ≤ 128)
      ∧ slotCount 0x5C0F < 16 ∧ 128 < slotCount 0x5C81
      ∧ (bound.mailbox.ready = true ∧ bound.slotMap.entries[3] = some { slot := 127, role := .output 2 } ∧ slotCount 0x5C10 ≤ 127)
      ∧ ¬slotCount 0x5C80 ≤ 127 := by decide +kernel

theorem witness_StagedWordsAreKeptAsReceived :
    (inFrame bound 16 2).place = .breakWord ∧ (inFrame bound 16 1).passWords [9] = (inFrame bound 16 1).passWord 9
      ∧ ((inFrame bound 16 1).passWords [9]).place = .breakWord ∧ (inFrame bound 16 8).place = .input 3
      ∧ (inFrame bound 16 3).place = .control
      ∧ (inFrame bound 16 2).mailbox.ready = true ∧ ({ inFrame bound 16 2 with monitor := { state := .broken } }).monitor.state = .broken
      ∧ (inFrame bound 128 131).lines.rstn = true ∧ (inFrame bound 128 131).port.frame.passage = .cycle 128
      ∧ (inFrame bound 128 131).port.frame.position = 3 + 128 := by decide +kernel

/-- A locked device at the end of a frame that is malformed, one bad frame short of its badLimit. -/
def lastBad : Device :=
  { ready with port := { ready.port with link := .locked, badRun := 2, frame := { passage := .malformed, position := 40 } } }

/-- Slots 0, 5, 14 and 15 of a frame of 16 are bound and slot 1 is not; slot 127 lies beyond that frame and within one of 128. -/
theorem witness_StagedWords_places :
    [0, 1, 2, 3, 4, 8, 17, 18].map (fun p => (inFrame bound 16 p).place)
        = [.plain, .plain, .breakWord, .control, .plain, .input 3, .output 15, .status]
      ∧ [19, 31, 32, 33, 47, 48, 49, 50].map (fun p => (inFrame bound 16 p).place)
        = [.command, .command, .resultHead, .resultRest, .resultRest, .crcHigh, .crcLow, .unserved]
      ∧ [129, 130, 131, 159].map (fun p => (inFrame bound 128 p).place) = [.plain, .output 2, .command, .resultRest]
      ∧ (inFrame bound 16 8).lines.rstn = true ∧ (inFrame bound 16 8).port.frame.passage = .cycle 16
      ∧ (bound.slotMap.entries[0] = some { slot := 5, role := .input 3 } ∧ (5 : Fin 128).val < 16)
      ∧ (∀ i : Fin 64, (bound.slotMap.entries[i].all fun x => 4 != 3 + x.slot.val) = true)
      ∧ (lastBad.port.frame.passage = .malformed ∧ lastBad.place = .unserved ∧ (inFrame bound 16 4).port.frame.passage ≠ .idle) := by
  decide +kernel

/-- An actuator whose break delay is about to end. -/
def delaying : Actuator := { phase := .delaying, countdown := 1, action := .ramp, fixedValue := 10000 }

theorem witness_InsertedWordsCarryTheDevicesValues :
    (inFrame bound 128 130).place = .output 2 ∧ (inFrame bound 128 130).mailbox.ready = true
      ∧ (inFrame { fresh with slotMap := someMap } 128 130).place = .output 2
      ∧ (inFrame { fresh with slotMap := someMap } 128 130).mailbox.ready = false ∧ (inFrame bound 16 18).place = .status
      ∧ ({} : Actuator).phase = .none ∧ delaying.phase = .delaying
      ∧ [BreakAction.follow, .hold, .force, .ramp].all (fun x => ({ delaying with phase := .acting, action := x } : Actuator).action == x)
      := by decide +kernel

theorem witness_PendingResultFillsAnEmptyArea :
    (inFrame delivering 16 32).place = .resultHead ∧ (inFrame delivering 16 32).mailbox.pending = some someResult
      ∧ (inFrame bound 16 32).place = .resultHead ∧ (inFrame bound 16 32).mailbox.pending = none
      ∧ (List.replicate 15 (0 : Word)).length = 15 := by decide +kernel

theorem witness_CrcWordsAreCheckedAndReplaced :
    (inFrame bound 16 48).place = .crcHigh ∧ (0 : Word) ++ (0 : Word) = ~~~(inFrame bound 16 48).port.frame.crcIn
      ∧ (0 : Word) ++ (1 : Word) ≠ ~~~(inFrame bound 16 48).port.frame.crcIn := by decide +kernel

theorem witness_GoodFrameLeavesGood :
    (st bound).dev.lines.rstn = true ∧ frameKind 0x5C10 = cycleKind ∧ slotCount 0x5C10 = 16 ∧ (List.replicate 47 (0 : Word)).length = 16 + 31
      ∧ frameKind 0x5C80 = cycleKind ∧ slotCount 0x5C80 = 128 ∧ (List.replicate 159 (0 : Word)).length = 128 + 31 := by decide +kernel

/-- The frame in passage is whole, with matching CRC words and its signal, as the statements about completions say it. -/
def wholeFrame (d : Device) (loss : Bool) : Prop :=
  ∃ n, d.port.frame.passage = .cycle n ∧ d.port.frame.position = n + 34 ∧ d.port.frame.crcGood = true ∧ loss = false

theorem witness_BadFrameDeliversNothing :
    lastBad.passWords [] = lastBad ∧ lastBad.lines.rstn = true ∧ lastBad.port.frame.passage = .malformed ∧ lastBad.mailbox.executing = none
      ∧ lastBad.port.link = .locked ∧ (endOfGood ready).port.frame.passage = .cycle 16 ∧ (endOfGood ready).port.link ≠ .locked
      ∧ (inFrame ready 128 161).port.frame.position ≠ 128 + 34
      ∧ lastBad.slotMap.badLimit = min 255 (lastBad.port.badRun + 1)
      ∧ min 255 ((endOfGood ready).port.badRun + 1) < (endOfGood ready).slotMap.badLimit := by decide +kernel

theorem witness_BadFrame_not_whole : ¬wholeFrame lastBad false ∧ ¬wholeFrame (endOfGood ready) true ∧ ¬wholeFrame (inFrame ready 128 162) false := by
  refine ⟨?_, ?_, ?_⟩
  · rintro ⟨n, h, -⟩; cases h
  · rintro ⟨n, -, -, -, h⟩; cases h
  · rintro ⟨n, -, -, h, -⟩; cases h

/-- The end of a bad frame at two CYCLE units, one of them held, and a buffer that records at counter 0. -/
def badRecording : Device :=
  ({ lastBad with capture := { channels := [0], state := .running } }.setTimer 0 { mode := .count, clock := .cycle, n := 5 }).setTimer 5
    { mode := .count, clock := .cycle, n := 5, hold := .fixed true }

theorem witness_BadFrame_clocks_and_records :
    badRecording.lines.rstn = true ∧ badRecording.port.frame.passage = .malformed ∧ badRecording.Unread
      ∧ (badRecording.timers[0].clock = .cycle ∧ badRecording.timers[0].input.isFixed = true ∧ badRecording.timers[0].hold = .fixed false)
      ∧ (badRecording.timers[5].clock = .cycle ∧ badRecording.timers[5].input.isFixed = true ∧ badRecording.timers[5].hold = .fixed true)
      ∧ badRecording.capture.state = .running ∧ badRecording.capture.counter = 0 ∧ ready.capture.state = .idle :=
  ⟨rfl, rfl, ⟨by decide +kernel, by decide +kernel⟩, by decide +kernel⟩

/-- R107, R170: that completion: T0 takes its clock, T5 none, and the buffer its record, marked BAD. -/
theorem test_bad_completion :
    let t := after (choosing badRecording (List.replicate 9 0)) (.cycleCompletion [] false)
    (t.timers[0].count, t.timers[5].count) = (1, 0) ∧ t.capture.records.map CaptureRecord.good = [false] := by decide +kernel

/-- R17, R19: that completion at badLimit, and a bad one of a LOCKED link below it. -/
theorem test_bad_completion_loses_link :
    eventsOf (after lastBad (.cycleCompletion [] false)) = [(.frameBad, 0, 3), (.linkLost, 0, 2)]
      ∧ eventsOf (after { lastBad with port := { lastBad.port with badRun := 1 } } (.cycleCompletion [] false)) = [(.frameBad, 0, 2)] := by
  decide +kernel

/-- The end of a good frame that has staged one sample, a control word, a break word and a command for node 6. -/
def fullFrame : Device :=
  { bound with port := { bound.port with frame := {
    passage := .cycle 16, position := 50, crcGood := true
    staging := { inputs := (Staging.inputs {}).set 3 (some 77), control := some 3, breakWord := some 0x0102
                 command := 6 :: 2 :: 9 :: List.replicate 10 0 } } } }

theorem witness_GoodFrameDeliversWhatItStaged :
    fullFrame.passWords [] = fullFrame ∧ fullFrame.lines.rstn = true ∧ wholeFrame fullFrame false
      ∧ fullFrame.port.frame.staging.command = 6 :: 2 :: 9 :: List.replicate 10 0
      ∧ (6 : Word) = fullFrame.mailbox.nodeAddress.setWidth 16 ∧ fullFrame.mailbox.nodeAddress ≠ 0 ∧ (9 : Byte) = lowByte 9
      ∧ Cmd.readStatus = Cmd.ofCode (lowByte 2) (fun i => (List.replicate 10 (0 : Word)).getD i 0)
      ∧ (∀ k : Fin 6, fullFrame.timers[k].clock ≠ .cycle) ∧ Cmd.readStatus.writesTimer = false ∧ fullFrame.capture.state = .idle
      ∧ Cmd.readStatus.code ≠ 14 ∧ fullFrame.mailbox.executing = none ∧ wholeFrame (endOfGood ready) false
      ∧ (endOfGood ready).port.frame.staging.command = [] :=
  ⟨rfl, rfl, ⟨16, rfl, rfl, rfl, rfl⟩, rfl, by decide, by decide, by decide, rfl, by decide +kernel, rfl, rfl, by decide, rfl,
    ⟨16, rfl, rfl, rfl, rfl⟩, rfl⟩

/-- The end of a good frame with nothing else to react to it: C0 sampled for Z0 in PREHEAT and for Z1 in HOLD until it returns, CYCLE units T0 and
T1, one of them held, and a buffer that records at counter 0. -/
def quietFrame : Device :=
  let d := delivering0 { ready with capture := { channels := [0], state := .running } } 900
  ((((d.setChannel 0 { kind := .speed, validity := .stale }).setZone 0
    { enabled := true, spMax := 500, preheatSetpoint := 500, rampStep := 20, overBand := 900, mode := .preheat }).setZone 1
    { enabled := true, measChannel := 0, mode := .hold, returnMode := .track }).setTimer 0
    { mode := .count, clock := .cycle, n := 5 }).setTimer 1 { mode := .count, clock := .cycle, n := 5, hold := .fixed true }

theorem witness_GoodFrame_deliveries :
    wholeFrame quietFrame false ∧ quietFrame.Unread
      ∧ (∀ w, quietFrame.port.frame.staging.breakWord = some w → (highByte w ||| lowByte w) &&& quietFrame.monitor.membership = 0)
      ∧ (∀ w, quietFrame.port.frame.staging.control = some w → w.getLsbD 1 = true → quietFrame.capture.lastRequest = true)
      ∧ quietFrame.port.frame.staging.inputs[quietFrame.zones[0].measChannel] = some 900
      ∧ quietFrame.port.frame.staging.inputs[quietFrame.zones[1].measChannel] = some 900 ∧ (900 : Word) ≠ sensorFault
      ∧ quietFrame.zones[0].mode = .preheat
      ∧ (quietFrame.zones[1].mode = .hold ∧ quietFrame.channels[0].validity ≠ .fresh ∧ quietFrame.holdDemand 1 = false)
      ∧ (quietFrame.timers[0].clock = .cycle ∧ quietFrame.timers[0].input.isFixed = true ∧ quietFrame.timers[0].hold = .fixed false)
      ∧ (quietFrame.timers[1].clock = .cycle ∧ quietFrame.timers[1].input.isFixed = true ∧ quietFrame.timers[1].hold = .fixed true)
      ∧ quietFrame.port.frame.staging.command = [] ∧ quietFrame.capture.counter = 0 ∧ quietFrame.capture.state = .running :=
  ⟨⟨16, rfl, rfl, rfl, rfl⟩, ⟨by decide +kernel, by decide +kernel⟩, by rintro w ⟨⟩, by rintro w ⟨⟩, by decide +kernel⟩

/-- R14, R45, R92, R170: that completion: the tracker and the zones take the sample, T0 its clock, and the buffer its record. -/
theorem test_good_completion :
    let t := after (choosing quietFrame (List.replicate 9 0)) (.cycleCompletion [] false)
    t.speed.v = t.channels[0].filtered ∧ t.channels[0].filtered = 900 ∧ t.zones[0].w = 20 ∧ t.zones[1].mode = .track
      ∧ (t.timers[0].count, t.timers[1].count) = (1, 0)
      ∧ t.capture.records.map CaptureRecord.entries = [[(900, .fresh)]] := by decide +kernel

/-- The first event of a good completion that comes in this link state. -/
def lockedFrom (l : LinkState) : Option (EventKind × Nat × Int) :=
  (eventsOf (after (endOfGood { ready with port := { ready.port with link := l } }) (.cycleCompletion [] false))).head?

/-- R19: a good completion from each link state. -/
theorem test_good_completion_locks :
    (lockedFrom .searching, lockedFrom .lost, lockedFrom .locked) = (some (.linkLocked, 0, 0), some (.linkLocked, 0, 1), none) := by
  decide +kernel

/-- `fullFrame` with this command area. -/
def commanding (code p0 p1 : Word) : Device :=
  { fullFrame with port := { fullFrame.port with frame := { fullFrame.port.frame with
      staging := { fullFrame.port.frame.staging with command := 6 :: code :: 9 :: p0 :: p1 :: List.replicate 8 0 } } } }

/-- Staged commands with their rows: Slot Map records 63 and 64, capture records 0 and 1, a code outside the catalogue, and a table 16. -/
theorem witness_GoodFrame_commands :
    (Cmd.ofCode 3 (fun i => [0x013F, 5, 1, 3].getD i 0)).row 9 = some (.writeSlotMap 9 63 5 1 3)
      ∧ (Cmd.ofCode 3 (fun i => [0x0140, 50, 3].getD i 0)).row 9 = some (.writeLinkRecord 9 50 3)
      ∧ (Cmd.ofCode 3 (fun i => [0x0900, 2, 4, 1, 7].getD i 0)).row 9 = some (.writeCaptureConfig 9 0 2 4 1 #v[7, 0, 0, 0])
      ∧ (Cmd.ofCode 3 (fun i => [0x0901, 100].getD i 0)).row 9 = some (.writeCapturePostCount 9 100)
      ∧ (Cmd.ofCode 20 (fun _ => 0)).row 9 = some (.unknownCommand 9 20) ∧ (Cmd.ofCode 2 (fun _ => 0)).row 9 = some (.readStatus 9)
      ∧ ((Cmd.ofCode 4 (fun i => [0x1000].getD i 0)).row 9 = none ∧ Cmd.ofCode 4 (fun i => [0x1000].getD i 0) = .invalid 4)
      ∧ ready.takesCommands = true ∧ ready.mailboxFree = true ∧ Cmd.readStatus ≠ .softReset := by decide +kernel

/-- R180, R184: a frame that brings a read of table 16, or a capture action 4, is answered with BAD_PARAM. -/
theorem test_invalid_command_answers :
    let answered := fun code p0 => ((after (choosing (commanding code p0 0) (List.replicate 9 0)) (.cycleCompletion [] false)).mailbox.pending.map fun r =>
      (r.code, r.tag, r.command, r.data.toList))
    answered 4 0x1000 = some (.badParam, 9, 4, List.replicate 13 0)
      ∧ answered 14 4 = some (.badParam, 9, 14, List.replicate 13 0) := by decide +kernel

/-! ## Witnesses: ticks and lines -/

/-- Channels at the edge of their limits: C0 FRESH one tick short of STALE, C1 FRESH one short of FAILED at once, C2 STALE one short of FAILED. -/
def ageing : Device :=
  ((ready.setChannel 0 { validity := .fresh, age := 999 }).setChannel 1
    { validity := .fresh, age := 999, failLimit := 1000 }).setChannel 2 { validity := .stale, age := 4999 }

/-- T0 to T3 with constant input: a TICK unit running, one held, a CYCLE and a MARK unit. -/
def clocked : Device :=
  ((ready.setTimer 1 { hold := .fixed true }).setTimer 2 { clock := .cycle }).setTimer 3 { clock := .mark }

/-- A suspicion with two ticks left, and Z0 in a purge with two ticks left. -/
def twoTicks : Device := ({ ready with monitor := { state := .suspect, countdown := 2 } } : Device).setZone 0 { mode := .purge, purgeCount := 2 }

theorem witness_TickActsAtEveryBlock :
    (st ageing).dev.lines.rstn = true ∧ ageing.channels[5].validity = .none ∧ ageing.channels[0].validity ≠ .none
      ∧ twoTicks.zones[0].mode = .purge ∧ 1 < twoTicks.zones[0].purgeCount ∧ twoTicks.monitor.state = .suspect
      ∧ 1 < twoTicks.monitor.countdown ∧ (∀ j : Fin 8, twoTicks.terms[j].deferred = false) ∧ twoTicks.Unread
      ∧ clocked.monitor.state ≠ .suspect ∧ (∀ k : Fin 6, clocked.timers[k].input.isFixed = true)
      ∧ (clocked.timers[0].clock = .tick ∧ clocked.timers[0].hold = .fixed false)
      ∧ (clocked.timers[1].clock = .tick ∧ clocked.timers[1].hold = .fixed true)
      ∧ clocked.timers[2].clock = .cycle ∧ clocked.timers[3].clock = .mark :=
  ⟨rfl, by decide +kernel, by decide +kernel, by decide +kernel, by decide +kernel, by decide +kernel, by decide +kernel, by decide +kernel,
    ⟨by decide +kernel, by decide +kernel⟩, by decide +kernel⟩

/-- `ageing` with a zone in each mode at C0, C1 and C2, and the speed read from C1. -/
def ageingZones (m : Mode) : Device :=
  (((({ ageing with speed := { speedChannel := 1, state := .steady } } : Device).setZone 0 { mode := m }).setZone 1 { mode := m, measChannel := 1 }).setZone
    2 { mode := m, measChannel := 2 }).setZone 11 { mode := m, measChannel := 1 }

theorem witness_AgeAndTimeout_readers :
    (∀ m ∈ [Mode.off, .preheat, .track, .hold, .purge, .fault], (ageingZones m).Unread
        ∧ (∀ z : Fin 12, z = 0 ∨ z = 1 ∨ z = 2 ∨ z = 11 → (ageingZones m).zones[z].mode = m)
        ∧ (ageingZones m).channels[0].validity = .fresh ∧ (ageingZones m).channels[1].validity = .fresh
        ∧ (ageingZones m).channels[2].validity = .stale ∧ (ageingZones m).zones[11].measChannel = (ageingZones m).zones[1].measChannel)
      ∧ (ageingZones .track).speed.speedChannel = 1 ∧ (ageingZones .track).zones[3].measChannel ≠ 1 := by
  unfold Device.Unread
  decide +kernel

/-- R49, R82, R86: the expiries at those zones. -/
theorem test_validity_is_followed :
    let stale := after (ageingZones .track) (.channelAgeStale 0)
    let failed := after (choosing (ageingZones .preheat) (List.replicate 9 0)) (.channelAgeFailed 1)
    (stale.zones[0].mode, stale.zones[0].returnMode, stale.zones[1].mode) = (.hold, .track, .track)
      ∧ (failed.zones[0].mode, failed.zones[1].mode, failed.zones[11].mode) = (.preheat, .fault, .fault)
      ∧ failed.speed.state = .unknown := by decide +kernel

/-- A LOCKED link one tick short of its cycle timeout. -/
def lastTick : Device := { ready with port := { link := .locked, timeoutCountdown := 1 } }

theorem witness_AgeAndTimeoutExpiries :
    ageing.lines.rstn = true
      ∧ (ageing.channels[0].validity = .fresh ∧ ageing.channels[0].staleLimit = min 65535 (ageing.channels[0].age + 1))
      ∧ (ageing.channels[1].validity = .fresh ∧ ageing.channels[1].failLimit = min 65535 (ageing.channels[1].age + 1))
      ∧ (ageing.channels[2].validity = .stale ∧ ageing.channels[2].failLimit = min 65535 (ageing.channels[2].age + 1))
      ∧ (ageing.channels[5].validity ≠ .fresh ∧ ageing.channels[5].validity ≠ .stale)
      ∧ min 65535 (ageing.channels[0].age + 1) < ageing.channels[0].failLimit
      ∧ min 65535 (twoTicks.channels[0].age + 1) < twoTicks.channels[0].staleLimit
      ∧ (lastTick.lines.rstn = true ∧ lastTick.port.timeoutCountdown = 1 ∧ lastTick.port.link = .locked
          ∧ eventsOf (after lastTick .cycleTimeoutExpiry) = [(.linkLost, 0, 1)])
      ∧ ({ lastTick with port := { timeoutCountdown := 1 } } : Device).port.link ≠ .locked
      ∧ ageing.port.timeoutCountdown ≠ 1 := by decide +kernel

/-- Z0 at the last tick of its purge, its channel FRESH. -/
def purging : Device :=
  (ready.setChannel 0 { validity := .fresh, filtered := 400 }).setZone 0 { enabled := true, mode := .purge, purgeCount := 1 }

/-- Z11 at the last tick of its purge, with a deferred failure. -/
def failing : Device := ready.setZone 11 { mode := .purge, purgeCount := 1, faultDeferred := true }

theorem witness_PurgeExpiryReseedsOrFaults :
    purging.lines.rstn = true ∧ purging.zones[0].mode = .purge ∧ purging.zones[0].purgeCount ≤ 1 ∧ purging.zones[0].faultDeferred = false
      ∧ purging.channels[0].validity = .fresh ∧ purging.holdDemand 0 = false
      ∧ (failing.lines.rstn = true ∧ failing.zones[11].mode = .purge ∧ failing.zones[11].purgeCount ≤ 1
          ∧ failing.zones[11].faultDeferred = true ∧ failing.zones[11].bumpless = false) := by
  decide +kernel

/-- A suspicion at its last tick. -/
def suspecting : Device := { ready with monitor := { state := .suspect, countdown := 1, suspectTicks := 4999 } }

theorem witness_ConfirmationExpiryDeclaresTheBreak :
    (st suspecting).dev.lines.rstn = true ∧ suspecting.monitor.state = .suspect ∧ suspecting.monitor.countdown ≤ 1 := by decide +kernel

/-- A unit in each timed mode and in COUNT mode, all at their last clock. -/
def lastClocks : Device :=
  ((((ready.setTimer 0 { mode := .delay, counting := true, n := 65535, count := 65534, inputLevel := true }).setTimer 1
    { mode := .oneShot, counting := true }).setTimer 2 { mode := .gap, counting := true }).setTimer 3
    { mode := .edge, counting := true }).setTimer 5 { mode := .count, n := 2, count := 1, clock := .mark }

theorem witness_TimerExpiryMakesTheTerminalEvent :
    lastClocks.lines.rstn = true ∧ lastClocks.level lastClocks.timers[0].hold = false ∧ lengthCounter.timers[2].clock = .cascade
      ∧ (ready.lines.mark = none ∧ (ready.setTimer 0 { clock := .mark }).timers[0].clock = .mark)
      ∧ (lengthCounter.timers[1].clock = .mark ∧ lengthCounter.lines.mark ≠ none)
      ∧ (∀ k : Fin 6, lastClocks.timers[k].clock ≠ .cascade)
      ∧ (lastClocks.timers[0].mode = .delay ∧ lastClocks.timers[0].counting = true
          ∧ lastClocks.timers[0].n ≤ lastClocks.timers[0].count + 1)
      ∧ (lastClocks.timers[1].mode = .oneShot ∧ lastClocks.timers[1].counting = true
          ∧ lastClocks.timers[1].n ≤ lastClocks.timers[1].count + 1)
      ∧ (lastClocks.timers[2].mode = .gap ∧ lastClocks.timers[2].counting = true)
      ∧ (lastClocks.timers[3].mode = .edge ∧ lastClocks.timers[3].counting = true)
      ∧ (lastClocks.timers[5].mode = .count ∧ lastClocks.timers[5].inputLevel = false
          ∧ lastClocks.timers[5].n ≤ lastClocks.timers[5].count + 1) := by decide +kernel

/-- A WINDOW countdown at its last recording, and an actuator at the last passing of its delay. -/
def lastRecording : Device :=
  { ready with
    slotMap := someMap
    capture := { channels := [3], mode := .window, state := .postfill, countdown := 1, markOwed := true }
    actuators := ready.actuators.set 15 delaying }

theorem witness_CountdownsOfCaptureAndActuatorEnd :
    lastRecording.lines.rstn = true ∧ lastRecording.capture.state = .postfill ∧ lastRecording.capture.mode = .window
      ∧ lastRecording.capture.counter = 0 ∧ lastRecording.capture.countdown ≤ 1 ∧ lastRecording.mailbox.ready = true
      ∧ lastRecording.actuators[15].phase = .delaying ∧ lastRecording.actuators[15].countdown ≤ 1
      ∧ lastRecording.slotMap.entries[63] = some { slot := 14, role := .output 15 }
      ∧ fresh.mailbox.ready = false ∧ (∀ i : Fin 64, ready.slotMap.entries[i] = none) := by decide +kernel

/-- L7 deferred, alone. -/
def deferred : Device := ready.setTerm 7 { table := 1, eventFlag := true, deferred := true }

/-- L3 deferred with L7, which reads it. -/
def twoDeferred : Device := (deferred.setTerm 7 { a := .term 3, table := 2, eventFlag := true, deferred := true }).setTerm 3 { table := 1, deferred := true }

theorem witness_DeferredTermTakesItsEntry :
    ready.lines.rstn = true ∧ (∀ j : Fin 8, ready.terms[j].deferred = false) ∧ deferred.terms[7].deferred = true
      ∧ (∀ i : Fin 8, i ≠ 7 → deferred.terms[i].deferred = false)
      ∧ (∀ j : Fin 8, twoDeferred.terms[j].binding = .none) ∧ (∀ k : Fin 6, twoDeferred.timers[k].input.isTerm = false)
      ∧ (twoDeferred.permit = .asserted → twoDeferred.permitConditions = true)
      ∧ twoDeferred.terms[3].deferred = true ∧ twoDeferred.terms[7].deferred = true := by decide +kernel

/-- Both lines accepted, low and high, and a unit that reads MARK. -/
def accepted : Device :=
  { ready.setTimer 0 { mode := .gap, input := .markLevel } with lines := { rstn := true, straps := 6, mark := some false, wbrk := some true } }

/-- `accepted` with T1, T4 and T5 of constant input: two MARK units, one of them held, and a CYCLE unit. -/
def acceptedUnits : Device :=
  ((accepted.setTimer 1 { mode := .count, clock := .mark, n := 5 }).setTimer 4 { mode := .count, clock := .mark, n := 5, hold := .fixed true }).setTimer
    5 { mode := .count, clock := .cycle, n := 5 }

theorem witness_LineTransitions_units :
    acceptedUnits.lines.rstn = true ∧ acceptedUnits.lines.mark = some (!true)
      ∧ (acceptedUnits.timers[1].input.isFixed = true ∧ acceptedUnits.timers[1].clock = .mark ∧ acceptedUnits.timers[1].hold = .fixed false)
      ∧ (acceptedUnits.timers[4].input.isFixed = true ∧ acceptedUnits.timers[4].clock = .mark ∧ acceptedUnits.timers[4].hold = .fixed true)
      ∧ (acceptedUnits.timers[5].input.isFixed = true ∧ acceptedUnits.timers[5].clock = .cycle)
      ∧ ((after acceptedUnits (.markLevelChange true)).timers[1].count, (after acceptedUnits (.markLevelChange true)).timers[4].count) = (1, 0) := by
  decide +kernel

/-- `d` with MARK accepted low and L7 reading it, so that a rise of MARK moves L7 to `v`. -/
def marked (d : Device) (b : Binding) (v : Bool) : Device :=
  { d.setTerm 7 { a := .markLevel, table := if v = true then 2 else 1, binding := b, zoneMask := 0x801, value := !v, eventFlag := true } with
    lines := { d.lines with mark := some false } }

theorem witness_LineTransitionsAreTaken :
    accepted.lines.rstn = true ∧ accepted.lines.mark = some (!true) ∧ (∀ k : Fin 6, accepted.timers[k].clock ≠ .mark)
      ∧ accepted.lines.wbrk = some (!false) ∧ ready.lines.mark = none ∧ ready.lines.wbrk = none
      ∧ ready.lines.mark ≠ some (!true) ∧ accepted.lines.mark ≠ some (!false) ∧ accepted.lines.wbrk ≠ some (!true)
      ∧ accepted.lines.mark ≠ none ∧ accepted.lines.wbrk ≠ none := by decide +kernel

theorem witness_TimeAndLinesKeepTheConfiguration :
    Instr.tick.timeOrLine = true ∧ ∃ t, exec .tick (st ready) = .next t := ⟨rfl, _, rfl⟩

/-! ## Witnesses: the mailbox -/

theorem witness_IdentityAndStatusWordsAnswer :
    (st fresh).dev.Free ∧ ((0 : Byte) = 0 ∨ 19 < (0 : Byte).toNat) ∧ 19 < (20 : Byte).toNat
      ∧ (fresh.raise .linkLocked 0 0).events.records ≠ [] ∧ fresh.events.records = [] :=
  ⟨fresh_free, by decide, by decide, by decide +kernel, rfl⟩

theorem witness_AddressesAndCommandWordsAgree :
    Cond.ofWord (Cond.timer 5).toWord = some (.timer 5) ∧ 13 < (highByte 0x0E00).toNat
      ∧ ((0 : Byte) = 0 ∨ 9 < (10 : Byte).toNat) ∧ 15 < (16 : Byte).toNat ∧ 3 < (4 : Word).toNat ∧ 1 < (2 : Word).toNat
      ∧ 19 < (20 : Byte).toNat ∧ (fun _ : Nat => packBytes 1 63) 0 = packBytes 1 63 ∧ 2 < (3 : Word).toNat
      ∧ [0x0201, 0x0301, 0x0400].map (fun head : Word => Cmd.ofCode 3 fun i => [head, 3].getD i 0) = List.replicate 3 (.invalid 3) := by
  decide +kernel

/-- A READY part with this Monitor, the speed known. -/
def monitored (m : Monitor) : Device := { ready with monitor := m, speed := { state := .stopped } }

/-- R120: (SPEED, 5), (BREAK, 0) and (ZONE_HOLD, 11), each true in its state. -/
theorem test_condition_levels :
    ({ ready with speed := { state := .steady } } : Device).level (.speed 5) = true
      ∧ ((monitored { state := .armed }).level (.brk 0), (monitored { state := .broken }).level (.brk 2)) = (true, true)
      ∧ (ready.setZone 11 { mode := .hold }).level (.zoneHold 11) = true ∧ Cond.ofWord 0x090B = some (.zoneHold 11)
      ∧ Cond.ofWord 0x0102 = some .permitRequest ∧ Cond.ofWord 0x0103 = none := by decide +kernel

theorem witness_RingSpeedAndProfileReadsAnswer :
    (st bound).dev.Free ∧ (63 : Byte).toNat = (63 : Fin 64).val ∧ (64 : Byte).toNat = 64 ∧ 64 < (65 : Byte).toNat
      ∧ (31 : Byte).toNat = (31 : Fin 32).val ∧ 32 ≤ (32 : Byte).toNat ∧ 1 < (2 : Word).toNat ∧ 1 < (2 : Byte).toNat
      ∧ (11 : Byte).toNat = (11 : Fin 12).val ∧ (15 : Word).toNat = (15 : Fin 16).val ∧ 12 ≤ (12 : Byte).toNat
      ∧ 16 ≤ (16 : Word).toNat := ⟨bound_free, by decide +kernel⟩

/-- `fresh` with the Slot Map of `bound`. -/
def mapped : Device := { fresh with slotMap := someMap }

theorem mapped_free : (st mapped).dev.Free := ⟨by decide +kernel, by decide +kernel⟩

theorem witness_SlotMapWritesKeepTheMapConsistent :
    (st ready).dev.Free ∧ (63 : Byte) ≠ 64 ∧ ready.mailbox.ready = true ∧ (st mapped).dev.Free ∧ mapped.mailbox.ready = false
      ∧ 64 < (65 : Byte).toNat ∧ (63 : Byte).toNat = (63 : Fin 64).val
      ∧ 128 ≤ (128 : Word).toNat ∧ 4 < (5 : Word).toNat ∧ 32 ≤ (32 : Word).toNat ∧ 16 ≤ (16 : Word).toNat
      ∧ (127 : Word).toNat = (SlotEntry.mk 127 (.input 31)).slot.val ∧ (31 : Word).toNat = (31 : Fin 32).val
      ∧ ((0 : Fin 64) ≠ 63 ∧ mapped.slotMap.entries[0] = some { slot := 5, role := .input 3 })
      ∧ (1 ≤ (255 : Word).toNat ∧ (255 : Word).toNat ≤ 255 ∧ 1 ≤ (15 : Word).toNat ∧ (15 : Word).toNat ≤ 15)
      ∧ ¬(1 ≤ (256 : Word).toNat ∧ (256 : Word).toNat ≤ 255) :=
  ⟨ready_free, by decide, rfl, mapped_free, rfl, by decide +kernel⟩

theorem witness_SlotMapWrites_free_slot :
    ¬∃ (j : Fin 64) (x : SlotEntry), j ≠ 63 ∧ fresh.slotMap.entries[j] = some x ∧ (x.slot = 127 ∨ x.role = .input 31) := by
  have empty : ∀ j : Fin 64, fresh.slotMap.entries[j] = none := by decide +kernel
  rintro ⟨j, x, -, h, -⟩
  cases (empty j).symm.trans h

theorem witness_ScaleWriteReplacesTheScaleFields :
    (st fresh).dev.Free ∧ 32 ≤ (32 : Byte).toNat ∧ 4 ≤ (4 : Word).toNat ∧ (31 : Byte).toNat = (31 : Fin 32).val
      ∧ (1 : Word).toNat = ChannelKind.speed.code ∧ fresh.channels[31].kind ≠ .speed ∧ fresh.mailbox.ready = false
      ∧ (0 : Word).toNat = ChannelKind.temp.code ∧ fresh.channels[31].kind = .temp ∧ (st ready).dev.Free ∧ ready.channels[31].kind ≠ .speed
      ∧ ready.mailbox.ready = true :=
  ⟨fresh_free, by decide, by decide, by decide, by decide, by decide +kernel, rfl, by decide, by decide +kernel, ready_free,
    by decide +kernel, rfl⟩

theorem witness_ScaleWrite_fits (kl kh : Int) (h : ChannelKind.speed.limits = some (kl, kh)) :
    (0x7FFF : Word) ≠ 0x8000 ∧ (0x8001 : Word) ≠ 0x8000 ∧ 1 ≤ (256 : Word).toNat ∧ (256 : Word).toNat ≤ 256 ∧ kl ≤ (0 : Word).toInt
      ∧ (0 : Word).toInt ≤ (1500 : Word).toInt ∧ (1500 : Word).toInt ≤ kh := by
  cases h
  decide

/-- C31 FAILED, with its comparators CLEAR. -/
def failed : Device := ready.setChannel 31 { validity := .failed }

theorem witness_LimitsWriteReplacesTheLimitFields :
    (st failed).dev.Free ∧ 32 ≤ (32 : Byte).toNat ∧ 1 < (2 : Word).toNat ∧ (31 : Byte).toNat = (31 : Fin 32).val
      ∧ (1 : Word) = (if true = true then 1 else 0) ∧ failed.channels[31].validity = .failed ∧ failed.channels[31].failState ≠ true
      ∧ failed.channels[30].validity ≠ .failed ∧ (1 ≤ (1 : Word).toNat ∧ (1 : Word).toNat ≤ (0xFFFF : Word).toNat)
      ∧ (500 : Word).toNat ≤ 500 :=
  ⟨⟨by decide +kernel, by decide +kernel⟩, by decide +kernel⟩

theorem witness_LimitsWrite_fits (kl kh : Int) (h : failed.channels[31].kind.limits = some (kl, kh)) :
    kl ≤ (4500 : Word).toInt ∧ (4500 : Word).toInt ≤ kh ∧ kl ≤ (0xFE0C : Word).toInt ∧ (0xFE0C : Word).toInt ≤ kh := by
  have : failed.channels[31].kind.limits = some (-500, 4500) := by decide +kernel
  rw [this] at h
  cases h
  decide

theorem witness_SpeedAndBreakWritesReplaceTheirFields :
    (st fresh).dev.Free ∧ (st ready).dev.Free ∧ (1 : Byte) ≠ 0 ∧ 32 ≤ (32 : Word).toNat
      ∧ ((1500 : Word).toNat ≤ (1500 : Word).toNat ∧ (1500 : Word).toNat ≤ 1500 ∧ 1 ≤ (1 : Word).toNat ∧ (1 : Word).toNat ≤ 1500
          ∧ (255 : Word).toNat ≤ 255)
      ∧ ¬(256 : Word).toNat ≤ 255 ∧ (31 : Word).toNat = (31 : Fin 32).val ∧ fresh.speed.speedChannel = 0 ∧ fresh.speed.speedChannel ≠ 31
      ∧ fresh.mailbox.ready = false ∧ ready.speed.speedChannel ≠ 31 ∧ ready.mailbox.ready = true
      ∧ 256 ≤ (256 : Word).toNat ∧ (255 : Word) = (255 : Byte).setWidth 16 ∧ (0xFFFF : Word) ≠ 0 :=
  ⟨fresh_free, ready_free, by decide +kernel⟩

/-- The header of a load of curve 11, entries 13 to 15, length 16. -/
def lastHeader : Word := 0x83DB

theorem witness_ProfileWriteLoadsTheShadowCurve :
    (st ready).dev.Free
      ∧ (let word := fun i => (#v[0, 0xFE0C, 0, 750, 2000, 5000, 1500, 4500, 10000] : Vector Word 9).toList.getD i 0
         (lastHeader.extractLsb' 0 4).toNat = (11 : Fin 12).val ∧ (lastHeader.extractLsb' 8 3).toNat = 3
          ∧ (lastHeader.extractLsb' 4 4).toNat + (lastHeader.extractLsb' 8 3).toNat = 16 ∧ (lastHeader.extractLsb' 11 5).toNat = 16
          ∧ (∀ j < 3, (word (3 * j)).toNat ≤ 1500 ∧ -500 ≤ (word (3 * j + 1)).toInt ∧ (word (3 * j + 1)).toInt ≤ 4500
              ∧ (word (3 * j + 2)).toNat ≤ 10000))
      ∧ ¬((0x000C : Word).extractLsb' 0 4).toNat ≤ 11 := ⟨ready_free, by decide +kernel, by decide⟩

/-- A part whose SHADOW curve C3 is short, one whose curve C0 is out of order, and one with a TRACK zone without a curve. -/
def shortCurve : Device := { ready with profile := { shadow := ready.profile.shadow.set 3 (curve [⟨0, 0, 0⟩]) } }

/-- Entries 0 and 1 of C0 at one speed. -/
def disordered : Device := { ready with profile := { shadow := ready.profile.shadow.set 0 (curve [⟨9, 0, 0⟩, ⟨9, 0, 0⟩]) } }

/-- Z11 in TRACK. -/
def tracking : Device := ready.setZone 11 { enabled := true, mode := .track }

theorem witness_ProfileValidationFindsTheFirstFault :
    fresh.profileFault = none ∧ shortCurve.profileFault = some (3, 1, .short) ∧ disordered.profileFault = some (0, 1, .order)
      ∧ tracking.profileFault = some (11, 0, .emptyInTrack) := by decide +kernel

/-- Z11 in TRACK with a sound SHADOW curve. -/
def committing : Device := { tracking with profile := { shadow := tracking.profile.shadow.set 11 (curve [⟨0, 0, 0⟩, ⟨9, 0, 0⟩]) } }

theorem witness_CommitCopiesTheBankAndMarksTheZones :
    (st committing).dev.Free ∧ (st ready).dev.Free ∧ (st shortCurve).dev.Free ∧ committing.profileFault = none
      ∧ committing.zones[11].mode = .track ∧ ready.profileFault = none ∧ (∀ z : Fin 12, ready.zones[z].mode ≠ .track)
      ∧ shortCurve.profileFault = some (3, 1, .short) :=
  ⟨⟨by decide +kernel, by decide +kernel⟩, ready_free, ⟨by decide +kernel, by decide +kernel⟩, by decide +kernel⟩

/-- A commit that waits for Z0 and Z11. -/
def waiting : Device :=
  (({ executing with profile := { commit := some { marked := 0x801 } } } : Device).setZone 11 { mode := .track, bumpless := true })

theorem executing_matches : Commit.Matches { marked := 1 } executing := by
  intro z
  revert z
  decide +kernel

theorem waiting_matches : Commit.Matches { marked := 0x801 } waiting := by
  intro z
  revert z
  decide +kernel

theorem witness_LastMarkCompletesTheCommit :
    executing.profile.commit = some { marked := 1 } ∧ executing.mailbox.executing = some { code := 6, tag := 1 }
      ∧ executing.zones[0].bumpless = true ∧ (∀ y : Fin 12, y ≠ 0 → executing.zones[y].bumpless = false)
      ∧ waiting.profile.commit = some { marked := 0x801 } ∧ waiting.mailbox.executing = some { code := 6, tag := 1 }
      ∧ waiting.zones[0].bumpless = true ∧ waiting.zones[11].bumpless = true := by decide +kernel

theorem witness_LastMark_matches : Commit.Matches { marked := 1 } executing ∧ Commit.Matches { marked := 0x801 } waiting :=
  ⟨executing_matches, waiting_matches⟩

theorem witness_LookupFollowsTheCurve :
    let c := curve [⟨0, 300, 2000⟩, ⟨500, 220, 6000⟩, ⟨1000, 180, 9000⟩]
    c.length = 3 ∧ (∀ i j : Fin 16, i < j → j.val < 3 → c.entries[i].speed < c.entries[j].speed) ∧ 0 ≤ c.entries[0].speed
      ∧ c.entries[2].speed ≤ 1000 ∧ c.entries[1].speed ≤ 500 ∧ 500 < c.entries[2].speed ∧ 999 < c.entries[2].speed := by decide +kernel

theorem witness_ZoneWritesReplaceTheirFields :
    (st fresh).dev.Free ∧ (st tracking).dev.Free ∧ 12 ≤ (12 : Byte).toNat ∧ (11 : Byte).toNat = (11 : Fin 12).val
      ∧ ((1 : Word).toNat ≤ 1 ∧ (11 : Word).toNat = (11 : Fin 32).val ∧ -500 ≤ (0xFE0C : Word).toInt
          ∧ (0xFE0C : Word).toInt ≤ (4500 : Word).toInt ∧ (4500 : Word).toInt ≤ 4500 ∧ 1 ≤ (500 : Word).toNat ∧ (500 : Word).toNat ≤ 500)
      ∧ tracking.zones[11].measChannel = 0 ∧ tracking.zones[11].mode ≠ .off ∧ tracking.mailbox.ready = true
      ∧ fresh.mailbox.ready = false
      ∧ ((4095 : Word).toNat ≤ 4095 ∧ (10000 : Word).toNat ≤ (10000 : Word).toNat ∧ (10000 : Word).toNat ≤ 10000 ∧ 1 ≤ (1 : Word).toNat)
      ∧ ((1000 : Word).toNat ≤ 1000 ∧ 1 ≤ (0xFFFF : Word).toNat) ∧ ¬(4096 : Word).toNat ≤ 4095 ∧ ¬(1001 : Word).toNat ≤ 1000
      ∧ ¬(501 : Word).toNat ≤ 500 :=
  ⟨fresh_free, ⟨by decide +kernel, by decide +kernel⟩, by decide +kernel⟩

/-- Z0 in this mode, its channel in this validity. -/
def zoned (mode : Mode) (r : ReturnMode) (v : Validity) : Device :=
  (ready.setChannel 0 { validity := v }).setZone 0 { enabled := true, mode := mode, returnMode := r }

theorem witness_ZoneSeesItsChannelAndItsDemand :
    (∀ m ∈ [Mode.off, .preheat, .track, .hold, .purge, .fault], (zoned m .none .fresh).zones[0].mode = m
        ∧ (zoned m .none .fresh).zones[0].bumpless = false)
      ∧ (∀ r ∈ [ReturnMode.preheat, .track, .purge], (zoned .hold r .fresh).zones[0].returnMode = r)
      ∧ (zoned .hold .track .stale).channels[(zoned .hold .track .stale).zones[0].measChannel].validity ≠ .fresh
      ∧ (zoned .hold .track .fresh).channels[(zoned .hold .track .fresh).zones[0].measChannel].validity = .fresh
      ∧ (Validity.stale ≠ .failed) ∧ (11 : Fin 12) ≠ 0 := by decide +kernel

theorem witness_ZoneSees_term :
    (∀ v : Bool, (marked ready .zoneHold v).MarkMovesTerm true 7 v ∧ (marked ready .softBreak v).MarkMovesTerm true 7 v)
      ∧ (∀ m ∈ [Mode.off, .preheat, .track, .hold, .purge, .fault], ∀ v : Bool, (marked (zoned m .purge .fresh) .zoneHold v).MarkMovesTerm true 7 v
        ∧ (marked (zoned m .purge .fresh) .zoneHold v).zones[0].mode = m)
      ∧ (∀ v : Bool, (marked ready .zoneHold v).terms[7].binding = .zoneHold
        ∧ (marked ready .zoneHold v).terms[7].zoneMask.getLsbD 0 = true ∧ (marked ready .zoneHold v).terms[7].zoneMask.getLsbD 11 = true
        ∧ (marked ready .zoneHold v).terms[7].zoneMask.getLsbD 1 = false
        ∧ ∀ i : Fin 8, i ≠ 7 → (marked ready .zoneHold v).terms[i].binding ≠ .zoneHold) := by
  unfold Device.MarkMovesTerm
  decide +kernel

/-- R82, R84, R129: a rise of MARK through L7 holds Z0, and one that lets L7 fall lets it resume. -/
theorem test_mark_moves_zones :
    (after (marked (zoned .track .none .fresh) .zoneHold true) (.markLevelChange true)).zones[0].mode = .hold
      ∧ (after (marked (zoned .hold .preheat .fresh) .zoneHold false) (.markLevelChange true)).zones[0].mode = .preheat := by decide +kernel

theorem witness_ZoneTimerAndTermReadsAnswer :
    (st ready).dev.Free ∧ (11 : Byte).toNat = (11 : Fin 12).val ∧ 12 ≤ (12 : Byte).toNat ∧ 2 < (3 : Word).toNat
      ∧ (5 : Byte).toNat = (5 : Fin 6).val ∧ 6 ≤ (6 : Byte).toNat ∧ (7 : Byte).toNat = (7 : Fin 8).val ∧ 8 ≤ (8 : Byte).toNat :=
  ⟨ready_free, by decide⟩

/-- Z0 in PURGE by a break just declared, which found it in PREHEAT. -/
def brokenFirst : Device :=
  ({ ready with monitor := { state := .broken }, breakMet := 1 } : Device).setZone 0 { enabled := true, mode := .purge, purgeCount := 5 }

theorem witness_ZoneModeRefusalsNameTheFirstZone :
    (st fresh).dev.Free ∧ fresh.mailbox.ready = false ∧ (st tracking).dev.Free ∧ tracking.mailbox.ready = true
      ∧ (0x0FFF : Word).toNat < 4096 ∧ 4096 ≤ (0x1000 : Word).toNat ∧ 6 ≤ (6 : Word).toNat
      ∧ (2 : Word).toNat = Mode.track.code ∧ (0x0800 : Word).getLsbD (11 : Fin 12).val = true
      ∧ tracking.zones[11].enabled = true ∧ tracking.zones[11].mode ≠ .preheat
      ∧ (∀ y : Fin 12, y < 11 → (0x0800 : Word).getLsbD y.val = false)
      ∧ (brokenFirst.zones[0].mode = .purge ∧ brokenFirst.monitor.state = .broken
          ∧ brokenFirst.breakMet.getLsbD 0 = true) :=
  ⟨fresh_free, rfl, ⟨by decide +kernel, by decide +kernel⟩, rfl, by decide +kernel⟩

/-- Z0 OFF and enabled, its channel FRESH. -/
def startable : Device := (ready.setChannel 0 { validity := .fresh, filtered := 612 }).setZone 0 { enabled := true }

/-- Z0 in PREHEAT with a curve, the Monitor ARMED and the speed known. -/
def trackable : Device :=
  ({ startable with
      monitor := { state := .armed }, speed := { state := .steady }
      profile := { active := ready.profile.active.set 0 (curve [⟨0, 0, 0⟩, ⟨9, 0, 0⟩]) } } : Device).setZone 0
    { enabled := true, mode := .preheat }

theorem witness_ZoneModeChangesTheMaskedZones :
    (st startable).dev.Free ∧ startable.mailbox.ready = true ∧ (1 : Word).toNat = Mode.preheat.code ∧ (1 : Word) ≠ 0
      ∧ startable.modeRefusal 1 .preheat = none ∧ startable.modeRefusal 0x0FFF .off = none ∧ startable.zones[0].mode = .off
      ∧ (st tracking).dev.Free ∧ tracking.modeRefusal 0x0800 .preheat = none ∧ tracking.zones[11].mode = .track
      ∧ (st trackable).dev.Free ∧ trackable.modeRefusal 1 .track = none ∧ (2 : Word).toNat = Mode.track.code :=
  ⟨⟨by decide +kernel, by decide +kernel⟩, by decide +kernel, by decide, by decide, by decide +kernel, by decide +kernel,
    by decide +kernel, ⟨by decide +kernel, by decide +kernel⟩, by decide +kernel, by decide +kernel,
    ⟨by decide +kernel, by decide +kernel⟩, by decide +kernel, by decide⟩

/-- T5 counting, T4 idle, both at their power-on fields. -/
def oneCounts (d : Device) : Device := d.setTimer 5 { counting := true, n := 100 }

theorem witness_TimerWriteLatchesOrResets :
    (st (oneCounts ready)).dev.Free ∧ (st fresh).dev.Free ∧ 6 ≤ (6 : Byte).toNat ∧ 4 < (5 : Word).toNat ∧ 2 < (3 : Word).toNat
      ∧ 3 < (4 : Word).toNat ∧ Cond.ofWord 0x0002 = none ∧ (5 : Byte).toNat = (5 : Fin 6).val ∧ (0 : Word).toNat = TimerMode.delay.code
      ∧ Cond.ofWord 0 = some (.fixed false) ∧ (0 : Word).toNat = EdgeSelect.rise.code ∧ (0 : Word).toNat = ClockSource.tick.code
      ∧ (0xFFFF : Word) ≠ 0
      ∧ ((oneCounts ready).timers[5].mode = .delay ∧ (oneCounts ready).timers[5].input = .fixed false
          ∧ (oneCounts ready).timers[5].edge = .rise ∧ (oneCounts ready).timers[5].clock = .tick
          ∧ (oneCounts ready).timers[5].hold = .fixed false ∧ (oneCounts ready).timers[5].counting = true)
      ∧ (oneCounts ready).timers[4].counting ≠ true ∧ ready.timers[5].mode ≠ .count ∧ (4 : Word).toNat = TimerMode.count.code
      ∧ ready.mailbox.ready = true ∧ fresh.mailbox.ready = false :=
  ⟨⟨by decide +kernel, by decide +kernel⟩, fresh_free, by decide +kernel⟩

theorem witness_TermWriteSettlesAtOnce :
    (st ready).dev.Free ∧ ready.mailbox.ready = true ∧ (st fresh).dev.Free ∧ fresh.mailbox.ready = false ∧ 8 ≤ (8 : Byte).toNat
      ∧ Cond.ofWord 0x0E00 = none ∧ some (Cond.term 7) = Cond.ofWord 0x0707 ∧ (7 : Byte).toNat ≤ (7 : Fin 8).val ∧ 6 < (7 : Word).toNat
      ∧ 4096 ≤ (0x1000 : Word).toNat ∧ 1 < (2 : Word).toNat ∧ (7 : Byte).toNat = (7 : Fin 8).val
      ∧ Cond.ofWord 0x0706 = some (.term 6) ∧ Cond.ofWord 0x0001 = some (.fixed true) ∧ (6 : Fin 8) < 7
      ∧ (6 : Word).toNat = Binding.zoneHold.code ∧ (0x0FFF : Word).toNat < 4096 ∧ (1 : Word) = (if true = true then 1 else 0) :=
  ⟨ready_free, rfl, fresh_free, rfl, by decide +kernel⟩

theorem witness_TermWrite_terms_below (i : Fin 8)
    (h : Cond.term i ∈ [Cond.term 6, Cond.fixed true, Cond.fixed false, Cond.fixed false]) : i < 7 := by
  have : Cond.term i = Cond.term 6 := by simpa using h
  cases this
  decide

/-- A LOCKED part with the permit requested and DROPPED. -/
def permitted : Device := { ready with port := { link := .locked, permitRequest := true } }

/-- A permit that is asserted with every condition true. -/
def firing : Device := { permitted with permit := .asserted }

/-- `permitted` with L7 a FIRE_QUALIFIER that is false. -/
def unqualified : Device := permitted.setTerm 7 { binding := .fireQualifier }

theorem witness_RestorePermitNeedsEveryCondition :
    (st fresh).dev.Free ∧ fresh.mailbox.ready = false ∧ (st permitted).dev.Free ∧ permitted.permit = .dropped
      ∧ permitted.port.link = .locked ∧ permitted.port.permitRequest = true
      ∧ (∀ j : Fin 8, permitted.terms[j].binding = .fireQualifier → permitted.terms[j].value = true)
      ∧ (st ready).dev.Free ∧ ready.permit = .dropped ∧ ready.port.link ≠ .locked
      ∧ (st unqualified).dev.Free ∧ unqualified.terms[7].binding = .fireQualifier ∧ unqualified.terms[7].value = false
      ∧ (∀ i : Fin 8, i < 7 → unqualified.terms[i].binding = .fireQualifier → unqualified.terms[i].value = true)
      ∧ ({ permitted with permit := .asserted } : Device).permit = .asserted
      ∧ ({ permitted with port := { link := .locked } } : Device).port.permitRequest = false :=
  ⟨fresh_free, rfl, ⟨by decide +kernel, by decide +kernel⟩, rfl, rfl, rfl, by decide +kernel, ready_free, rfl, by decide +kernel,
    ⟨by decide +kernel, by decide +kernel⟩, by decide +kernel⟩

/-- The Monitor of `monitored` with one term of this binding at this value. -/
def withTerm (m : Monitor) (b : Binding) (v : Bool) : Device := (monitored m).setTerm 7 { binding := b, value := v }

theorem monitored_free (m : Monitor) : (st (monitored m)).dev.Free := ⟨rfl, rfl⟩

theorem withTerm_free (m : Monitor) (b : Binding) (v : Bool) : (st (withTerm m b v)).dev.Free := ⟨rfl, rfl⟩

theorem witness_BreakCommandsAreExaminedInOrder :
    fresh.mailbox.ready = false ∧ (monitored {}).mailbox.ready = true ∧ (monitored {}).monitor.state = .disarmed
      ∧ (monitored {}).speed.state ≠ .unknown ∧ ready.speed.state = .unknown
      ∧ ((withTerm {} .webPresent false).terms[7].binding = .webPresent ∧ (withTerm {} .webPresent false).terms[7].value = false)
      ∧ (∀ j : Fin 8, ¬((monitored {}).terms[j].binding = .webPresent ∧ (monitored {}).terms[j].value = false))
      ∧ (let m : Monitor := { wbrkEnable := true, wbrkActive := false }
         m.wbrkEnable = true ∧ (after (monitored m) (.wbrkFirstAcceptance false)).lines.wbrk = some m.wbrkActive)
      ∧ (let m : Monitor := { lastNotice := 0x80, membership := 0x80 }
         (m.lastNotice ||| m.lastAssert) &&& m.membership ≠ 0)
      ∧ (withTerm {} .hardBreak true).terms[7].value = true ∧ (withTerm {} .softBreak true).terms[7].binding = .softBreak
      ∧ (∀ j : Fin 8, ¬((monitored {}).terms[j].binding = .hardBreak ∧ (monitored {}).terms[j].value = true))
      ∧ (monitored { state := .broken }).monitor.state = .broken
      ∧ (failing.zones[11].mode = .purge ∧ ∀ y : Fin 12, y < 11 → failing.zones[y].mode = .off) := by decide +kernel

/-- The Monitor ARMED, its WBRK line enabled and active high, low before. -/
def lined : Device := { monitored { state := .armed, wbrkEnable := true } with lines := { rstn := true, straps := 6, mark := none, wbrk := some false } }

/-- A LOCKED part one tick short of its timeout, with its permit asserted. -/
def lastAsserted : Device := { firing with port := { link := .locked, permitRequest := true, timeoutCountdown := 1 } }

theorem witness_MonitorAndPermitActOnTheirLevels :
    (monitored { state := .armed }).monitor.state = .armed
      ∧ ((withTerm { state := .armed } .softBreak true).terms[7].binding = .softBreak
          ∧ (withTerm { state := .armed } .softBreak true).terms[7].value = true
          ∧ ∀ i : Fin 8, i < 7 → (withTerm { state := .armed } .softBreak true).terms[i].binding ≠ .softBreak)
      ∧ (withTerm { state := .suspect } .hardBreak true).monitor.state = .suspect
      ∧ ((withTerm { state := .suspect } .hardBreak true).terms[7].binding = .hardBreak
          ∧ ∀ i : Fin 8, i < 7 → (withTerm { state := .suspect } .hardBreak true).terms[i].binding ≠ .hardBreak)
      ∧ ready.monitor.state = .disarmed ∧ (monitored { state := .broken }).monitor.state = .broken
      ∧ (lined.lines.rstn = true ∧ lined.lines.wbrk = some (!true) ∧ lined.monitor.wbrkEnable = true ∧ lined.monitor.wbrkActive = true
          ∧ lined.hardLevel = false ∧ lined.monitor.state = .armed ∧ lined.Unread)
      ∧ (lastAsserted.lines.rstn = true ∧ lastAsserted.permit = .asserted ∧ lastAsserted.port.link = .locked
          ∧ lastAsserted.port.timeoutCountdown = 1 ∧ Instr.cycleTimeoutExpiry.timeOrLine = true
          ∧ (after lastAsserted .cycleTimeoutExpiry).permit = .dropped) :=
  ⟨by decide +kernel, by decide +kernel, by decide +kernel, by decide +kernel, by decide +kernel, by decide +kernel,
    ⟨by decide +kernel, by decide +kernel, by decide +kernel, by decide +kernel, by decide +kernel, by decide +kernel,
      ⟨by decide +kernel, by decide +kernel⟩⟩, by decide +kernel⟩

/-- A rise of each level, of one event, at an ARMED Monitor. -/
def bothRisen : Cascades :=
  let item : Job → Item := fun j => { origin := 0, cascade := 0, byTerm := true, life := 1, job := j }
  { dev := monitored { state := .armed }, items := [item (.softRise 1), item (.hardRise .hardTerm 0)], masks := [0] }

theorem witness_Monitor_one_event :
    bothRisen.dev.monitor.state = .armed ∧ bothRisen.items.map Item.job = [.softRise 1, .hardRise .hardTerm 0]
      ∧ bothRisen.items.map Item.origin = [0, 0]
      ∧ (pickNext bothRisen).map (fun r => (r.1.job, r.2.1.map Item.job)) = some (.hardRise .hardTerm 0, [.softRise 1]) := by decide +kernel

theorem witness_Monitor_moves :
    (∀ v : Bool, ∀ x ∈ [BreakState.armed, .suspect, .broken], ∀ b ∈ [Binding.softBreak, .hardBreak],
        (marked (monitored { state := x }) b v).MarkMovesTerm true 7 v)
      ∧ ∀ v : Bool, (marked firing .fireQualifier v).MarkMovesTerm true 7 v := by
  unfold Device.MarkMovesTerm
  decide +kernel

theorem witness_Monitor_terms :
    (∀ v : Bool, (marked firing .softBreak v).permitConditions = true)
      ∧ (∀ i : Fin 8, i ≠ 7 → (marked ready .softBreak true).terms[i].value = false)
      ∧ (marked (monitored { state := .suspect }) .hardBreak true).hardLevel = false ∧ (marked firing .fireQualifier false).permit = .asserted
      ∧ (marked firing .fireQualifier false).permitConditions = true := by
  decide +kernel

/-- R131, R139, R140: the readers of L7 at a rise of MARK. -/
theorem test_mark_moves_monitor_and_permit :
    let risen := fun d : Device => after (choosing d (List.replicate 9 0)) (.markLevelChange true)
    (risen (marked (monitored { state := .armed }) .softBreak true)).monitor.state = .suspect
      ∧ (risen (marked (monitored { state := .suspect }) .softBreak false)).monitor.state = .armed
      ∧ (risen (marked (monitored { state := .armed }) .hardBreak true)).monitor.history.map BreakRecord.causeIndex = [7]
      ∧ (risen (marked firing .fireQualifier false)).permit = .dropped := by decide +kernel

/-- The end of a good frame with these control and break words, and no command. -/
def bringing (d : Device) (control breakWord : Word) : Device :=
  { d with port := { d.port with frame := {
      passage := .cycle 128, position := 162, crcGood := true, staging := { control := some control, breakWord := some breakWord } } } }

/-- The Monitor ARMED in group 7 alone. -/
def grouped : Device := monitored { state := .armed, membership := 0x80 }

/-- `lastBad` with the permit asserted. -/
def lastBadAsserted : Device := { firing with port := { lastBad.port with permitRequest := true } }

theorem witness_Monitor_completions :
    ((bringing grouped 0 0x8000).lines.rstn = true ∧ (bringing grouped 0 0x8000).hardLevel = false
        ∧ (((highByte 0x8000 ||| lowByte 0x8000) &&& grouped.monitor.membership).getLsbD 7 = true)
        ∧ (∀ i : Fin 8, i < 7 → ((highByte 0x8000 ||| lowByte 0x8000) &&& grouped.monitor.membership).getLsbD i.val = false)
        ∧ (highByte 0x7F00 ||| lowByte 0x7F00) &&& grouped.monitor.membership = 0)
      ∧ (bringing grouped 0 0x8000).FrameIsGood ∧ (bringing grouped 0 0x8000).BringsNoCommand ∧ (bringing grouped 0 0x8000).Unread
      ∧ ((bringing firing 0 0).permit = .asserted ∧ (bringing firing 1 0).permitConditions = true ∧ (0 : Word).getLsbD 0 = false
        ∧ (1 : Word).getLsbD 0 = true)
      ∧ (lastBadAsserted.lines.rstn = true ∧ lastBadAsserted.port.frame.passage = .malformed ∧ lastBadAsserted.permit = .asserted
        ∧ lastBadAsserted.permitConditions = true ∧ lastBadAsserted.slotMap.badLimit = min 255 (lastBadAsserted.port.badRun + 1))
      ∧ ¬(lastBadAsserted.FrameIsGood ∧ false = false) ∧ lastBadAsserted.Unread :=
  ⟨by decide +kernel, ⟨128, rfl, rfl, rfl⟩, Or.inr (by rintro _ _ _ _ ⟨⟩), ⟨by decide +kernel, by decide +kernel⟩, by decide +kernel,
    by decide +kernel, (by rintro ⟨⟨n, h, -⟩, -⟩; cases h), ⟨by decide +kernel, by decide +kernel⟩⟩

/-- R131, R137, R139: the token of group 7 declares, a cleared request and a lost link drop the permit. -/
theorem test_completion_moves_monitor_and_permit :
    ((after (choosing (bringing grouped 0 0x8000) (List.replicate 9 0)) (.cycleCompletion [] false)).monitor.history.map fun r =>
        (r.cause, r.causeIndex)) = [(.token, 7)]
      ∧ eventsOf (after (choosing (bringing firing 0 0) (List.replicate 9 0)) (.cycleCompletion [] false)) = [(.permitDropped, 0, 3)]
      ∧ eventsOf (after (choosing lastBadAsserted (List.replicate 9 0)) (.cycleCompletion [] false))
        = [(.frameBad, 0, 3), (.linkLost, 0, 2), (.permitDropped, 0, 2)] := by decide +kernel

theorem witness_BreakNowDeclaresAndResetEnds :
    (st (monitored { state := .armed })).dev.Free ∧ (monitored { state := .armed }).mailbox.ready = true
      ∧ (monitored { state := .armed }).monitor.state = .armed ∧ suspecting.monitor.state = .suspect
      ∧ (monitored { state := .broken }).monitor.state = .broken ∧ (monitored { state := .broken }).resetObstacle = none
      ∧ (monitored { state := .broken }).purgingZone = none :=
  ⟨monitored_free _, rfl, rfl, rfl, rfl, by decide +kernel, by decide +kernel⟩

/-- A15 with the source of term L7. -/
def sourced : Device := ready.setActuator 15 { source := .term 7 }

theorem witness_ActuatorWritesReplaceTheirFields :
    (st sourced).dev.Free ∧ (st fresh).dev.Free ∧ 16 ≤ (16 : Byte).toNat ∧ 2 < (3 : Word).toNat ∧ 12 ≤ (12 : Word).toNat
      ∧ 8 ≤ (8 : Word).toNat ∧ (10000 : Word).toNat ≤ 10000 ∧ ¬(10001 : Word).toNat ≤ 10000 ∧ 1 ≤ (1 : Word).toNat
      ∧ (255 : Word).toNat ≤ 255 ∧ (15 : Byte).toNat = (15 : Fin 16).val ∧ (11 : Word).toNat = (11 : Fin 12).val
      ∧ (7 : Word).toNat = (7 : Fin 8).val ∧ (3 : Word).toNat = BreakAction.ramp.code ∧ fresh.mailbox.ready = false
      ∧ sourced.mailbox.ready = true ∧ 16 ≤ (16 : Word).toNat ∧ sourced.actuators[15].source ≠ .fixed
      ∧ sourced.actuators[0].source = .fixed ∧ (0xFFFF : Word).toInt < 0 ∧ 10000 < (10001 : Word).toInt :=
  ⟨⟨by decide +kernel, by decide +kernel⟩, fresh_free, by decide +kernel⟩

/-- A Break History record. -/
def someBreak : BreakRecord :=
  { cause := .token, causeIndex := 4, stamp := 0xFFFFFFFF, lead := 1500, trackMask := 0xFFF, suspectDuration := 0, sequence := 1 }

theorem witness_BreakActuatorAndCaptureReadsAnswer :
    (st (monitored { history := [someBreak] })).dev.Free ∧ (st bound).dev.Free
      ∧ (monitored { history := [someBreak] }).monitor.history = [] ++ someBreak :: [] ∧ ([] : List BreakRecord).length = (0 : Byte).toNat
      ∧ (monitored { history := [someBreak] }).monitor.history.length ≤ (7 : Byte).toNat ∧ (7 : Byte).toNat < 8 ∧ 8 ≤ (8 : Byte).toNat
      ∧ 1 < (2 : Byte).toNat ∧ (15 : Byte).toNat = (15 : Fin 16).val ∧ 2 < (3 : Word).toNat ∧ 16 ≤ (16 : Byte).toNat
      ∧ 2 < (3 : Byte).toNat
      ∧ (bound.slotMap.entries[63] = some { slot := 14, role := .output 15 } ∧ bound.slotMap.binds (.output 0) = false) :=
  ⟨monitored_free _, bound_free, rfl, rfl, by decide +kernel⟩

/-- A READY part with this Capture Buffer. -/
def capturing (c : Capture) : Device := { ready with capture := c }

theorem capturing_free (c : Capture) : (st (capturing c)).dev.Free := ⟨rfl, rfl⟩

/-- A capture record of one channel. -/
def someRecord : CaptureRecord := { stamp := 1, good := true, lead := 0, breakState := .broken, mark := true, entries := [(4500, .fresh)] }

theorem witness_CaptureCommandsActByState :
    (0 : Byte) ≠ 1 ∧ (2 : Byte) ≠ 1
      ∧ ((2 : Word).toNat ≤ 2 ∧ 1 ≤ (256 : Word).toNat ∧ (256 : Word).toNat ≤ 256 ∧ (8 : Word).toNat ≤ 8
          ∧ ([31, 1, 2, 3, 4, 5, 6, 0] : List (Fin 32)).Nodup
          ∧ ([31, 1, 2, 3, 4, 5, 6, 0] : List (Fin 32)).map Fin.val
            = ([31, 1, 2, 3, 4, 5, 6, 0] : List Byte).map BitVec.toNat)
      ∧ (2 : Word).toNat = CaptureMode.window.code
      ∧ (capturing { state := .running }).capture.state = .running ∧ (capturing { state := .postfill }).capture.state = .postfill
      ∧ ((capturing { state := .frozen, records := [someRecord], channels := [0] }).capture.records ≠ []
          ∧ [(31 : Fin 32)] ≠ (capturing { state := .frozen, records := [someRecord], channels := [0] }).capture.channels)
      ∧ fresh.capture.state = .idle ∧ 512 ≤ (512 : Word).toNat ∧ (511 : Word).toNat ≤ 511 ∧ fresh.mailbox.ready = false
      ∧ (capturing { state := .waiting, mode := .post }).capture.mode = .post
      ∧ (capturing { state := .running, mode := .window }).capture.mode = .window
      ∧ (capturing {}).capture.state ≠ .running ∧ (capturing {}).mailbox.ready = true := by decide +kernel

theorem witness_Capture_triggers :
    (∀ v : Bool, ∀ m ∈ [CaptureMode.pre, .post, .window],
        (marked (capturing { state := .running, mode := m }) .captureTrigger v).MarkMovesTerm true 7 v
        ∧ (marked (capturing { state := .waiting, mode := m }) .captureTrigger v).capture.state = .waiting)
      ∧ (bringing (capturing { state := .running }) 2 0).FrameIsGood ∧ (bringing (capturing { state := .running }) 2 0).BringsNoCommand
      ∧ (bringing (capturing { state := .running }) 2 0).Unread ∧ (bringing (capturing { state := .running }) 2 0).lines.rstn = true
      ∧ (2 : Word).getLsbD 1 = true ∧ (capturing { state := .running }).capture.lastRequest = false
      ∧ (highByte 0 ||| lowByte 0) &&& ready.monitor.membership = 0 :=
  ⟨by unfold Device.MarkMovesTerm; decide +kernel, ⟨128, rfl, rfl, rfl⟩, Or.inr (by rintro _ _ _ _ ⟨⟩),
    ⟨by decide +kernel, by decide +kernel⟩, by decide +kernel⟩

/-- R172: the triggers of L7, and of a control word whose request rises. -/
theorem test_capture_triggers :
    eventsOf (after (marked (capturing { state := .waiting, mode := .post }) .captureTrigger true) (.markLevelChange true))
        = [(.termChanged, 7, 1), (.captureTriggered, 10, 0)]
      ∧ ((after (choosing (bringing (capturing { state := .running, mode := .window }) 2 0) (List.replicate 9 0))
        (.cycleCompletion [] false)).events.records.map EventRecord.source) = [0, 1] := by decide +kernel

theorem witness_CaptureCommands_free : (st fresh).dev.Free ∧ ∀ c, (st (capturing c)).dev.Free := ⟨fresh_free, capturing_free⟩

/-- A READY part whose Event Queue is full, with two classes. -/
def eventful : Device :=
  { ready with events := { records := (List.range 32).map fun n =>
      { kind := if n < 30 then .channelHi else .breakDeclared, source := BitVec.ofNat 8 n, stamp := 0, value := 0 } } }

theorem witness_ReadoutsGiveTheOldestFirst :
    (st (capturing { records := [someRecord], state := .frozen })).dev.Free ∧ (st eventful).dev.Free
      ∧ (capturing { records := [someRecord], state := .frozen }).capture.records = [] ++ someRecord :: []
      ∧ ([] : List CaptureRecord).length = (capturing { records := [someRecord], state := .frozen }).capture.position
      ∧ someRecord.entries.length ≤ 8 ∧ (capturing {}).capture.position = (capturing {}).capture.records.length
      ∧ (capturing {}).capture.state = .idle ∧ (capturing { state := .postfill }).capture.state = .postfill
      ∧ eventful.events.records.length ≤ 32 ∧ 32 ≤ eventful.events.records.length ∧ ready.events.records.length < 32 ∧ ready.events.records = []
      ∧ (∃ e ∈ eventful.events.records, e.kind.priority = 1) ∧ ∀ e ∈ eventful.events.records, 1 ≤ e.kind.priority :=
  ⟨capturing_free _, ⟨by decide +kernel, by decide +kernel⟩, rfl, rfl, by decide, rfl, rfl, rfl, by decide +kernel, by decide +kernel, by decide +kernel, rfl, by decide +kernel,
    by decide +kernel⟩

/-- CONTROL and the speed channel are bound, the speed channel is a SPEED channel, and Z0 is enabled on it. -/
def configured (c : Capture) : Device :=
  { fresh with
    slotMap := { entries := ((SlotMap.entries {}).set 0 (some { slot := 0, role := .control })).set 1 (some { slot := 1, role := .input 0 }) }
    channels := fresh.channels.set 0 { kind := .speed }
    zones := fresh.zones.set 0 { enabled := true }
    capture := c }

theorem witness_ConfigureDoneExaminesEveryItem :
    (st ready).dev.Free ∧ ready.mailbox.ready = true ∧ (st (configured {})).dev.Free ∧ (configured {}).mailbox.ready = false
      ∧ (configured {}).slotMap.entries[0] = some { slot := 0, role := .control }
      ∧ (configured {}).slotMap.entries[1] = some { slot := 1, role := .input 0 } ∧ (configured {}).speed.speedChannel = 0
      ∧ (configured {}).channels[0].kind = .speed ∧ (configured {}).zones[0].measChannel = 0
      ∧ (∀ z : Fin 12, z ≠ 0 → (configured {}).zones[z].enabled = false) ∧ (configured {}).capture.channels = []
      ∧ (configured { channels := [31] }).capture.channels ≠ [] ∧ fresh.slotMap.binds .control = false
      ∧ fresh.channels[0].kind ≠ .speed ∧ mapped.slotMap.binds .control = true ∧ mapped.slotMap.binds (.input 0) = false :=
  ⟨ready_free, rfl, ⟨rfl, rfl⟩, rfl, by decide +kernel⟩

theorem witness_SoftResetLeavesTheResetValues :
    (st executing).dev.lines.rstn = true ∧ executing.mailbox.nodeAddress ≠ 0
      ∧ (∀ i : Fin 8, ∀ c ∈ executing.terms[i].inputs, c.below i = true) := by decide +kernel

/-! ## Witnesses: what the blocks compute, and the invariants -/

theorem witness_SampleIsScaledFilteredAndCompared :
    let x : Channel := { validity := .failed }
    (0x8000 : Word) = 0x8000 ∧ (0x7FFF : Word) ≠ 0x8000 ∧ x.kind ≠ .discrete ∧ x.lo ≤ x.hi ∧ 1 ≤ x.alpha ∧ x.alpha ≤ 256
      ∧ (x.validity = .none ∨ x.validity = .failed) ∧ ({ x with validity := .fresh } : Channel).validity ≠ .failed
      ∧ ({ kind := .discrete } : Channel).kind = .discrete := by decide

theorem witness_SpeedSampleGivesLeadAndState :
    let x : Speed := { history := [0, 1500, 0, 1500, 0, 1500, 0, 1500], leadFactor := 255 }
    x.history.length ≤ 8 ∧ (∀ u ∈ x.history, 0 ≤ u ∧ u ≤ 1500) ∧ x.leadFactor ≤ 255 ∧ 0 ≤ x.leadFactor
      ∧ x.history = 0 :: [1500, 0, 1500, 0, 1500, 0, 1500] ∧ ({} : Speed).history.length < 8 := by decide

theorem zone_inRange : (trackable.zones[0]).InRange := by
  constructor <;> decide +kernel

theorem witness_ZoneUpdateFollowsTheNineSteps :
    trackable.zones[0].mode = .preheat ∧ tracking.zones[11].mode = .track
      ∧ trackable.channels[0].filtered ≤ trackable.zones[0].spMax + trackable.zones[0].overBand
      ∧ (let d := trackable.setChannel 0 { validity := .fresh, filtered := 2101 }
         d.zones[0].spMax + d.zones[0].overBand < d.channels[d.zones[0].measChannel].filtered)
      ∧ executing.zones[0].mode = .track ∧ executing.zones[0].bumpless = true ∧ -10000 ≤ executing.zones[0].u
      ∧ executing.zones[0].outMin ≤ executing.zones[0].u ∧ executing.zones[0].u ≤ executing.zones[0].outMax := by decide +kernel

theorem executing_inRange : (executing.zones[0]).InRange := by
  constructor <;> decide +kernel

theorem witness_TimerEdgesAndClocksByMode :
    (∀ k : Fin 6, k.val < 4 → k.val ≠ 0 → lastClocks.timers[k].counting = true) ∧ lastClocks.timers[4].counting = false
      ∧ lastClocks.timers[4].mode ≠ .count ∧ lastClocks.timers[5].mode = .count
      ∧ ({ edge := .both } : Timer).edge = .both ∧ ({ edge := .fall } : Timer).edge = .fall ∧ ({} : Timer).edge = .rise := by decide +kernel

/-- A unit that reads MARK under each clock, T0 to T2, and T5 that reads L7, which reads MARK. -/
def readers : Device :=
  marked ((((ready.setTimer 0 { input := .markLevel }).setTimer 1 { input := .markLevel, clock := .mark }).setTimer 2
    { input := .markLevel, clock := .cycle, inputLevel := true }).setTimer 5 { input := .term 7 }) .none true

theorem witness_TimerEdges_readers :
    readers.MarkMovesTerm true 7 true ∧ readers.timers[0].clock = .tick ∧ readers.timers[1].clock = .mark
      ∧ readers.timers[1].hold = .fixed false ∧ readers.timers[2].inputLevel = true ∧ readers.timers[5].input = .term 7
      ∧ (let t := after (choosing readers (List.replicate 9 0)) (.markLevelChange true)
         t.timers[0].counting = true ∧ t.timers[2].counting = false ∧ t.timers[5].inputLevel = true ∧ t.timers[5].counting = true) := by
  unfold Device.MarkMovesTerm
  decide +kernel

theorem witness_StepKeepsThePermitSafe :
    firing.PermitSafe ∧ firing.fpermit = true ∧ ∃ t, step { dev := firing, pending := [.tick] } = .next t :=
  ⟨fun _ => by decide +kernel, by decide +kernel, _, rfl⟩

theorem witness_StepKeepsTheCommitWait :
    waiting.CommitWaits ∧ executing.CommitWaits ∧ ∃ t, step { dev := waiting, pending := [.tick] } = .next t :=
  ⟨⟨by decide +kernel, by decide +kernel, by decide +kernel, ⟨0, by decide +kernel⟩, waiting_matches⟩,
    ⟨by decide +kernel, by decide +kernel, by decide +kernel, ⟨0, by decide +kernel⟩, executing_matches⟩, _, rfl⟩

theorem ranges_of (d : Device) (hz : d.zones = fresh.zones) (ha : d.actuators = fresh.actuators) : d.OutputsInRange := by
  refine ⟨fun z => ?_, fun a => ?_⟩
  · rw [hz]
    constructor <;> revert z <;> decide +kernel
  · rw [ha]
    constructor <;> revert a <;> decide +kernel

theorem witness_StepKeepsOutputsInRange :
    firing.OutputsInRange ∧ ∃ t, step { dev := firing, pending := [.tick] } = .next t :=
  ⟨ranges_of _ rfl rfl, _, rfl⟩

theorem witness_StepKeepsTheTablesSound :
    (∃ t, step { dev := committing, pending := [.commitProfile 1] } = .next t) ∧ committing.CurvesValid ∧ committing.TermsSettled :=
  ⟨⟨_, rfl⟩,
    ⟨fun c => ⟨by revert c; decide +kernel, by revert c; decide +kernel⟩,
      fun c => ⟨⟨by revert c; decide +kernel, by revert c; decide +kernel⟩, by revert c; decide +kernel⟩⟩,
    fun j => ⟨by revert j; decide +kernel, by revert j; decide +kernel⟩⟩

theorem bound_noDuplicates : bound.slotMap.NoDuplicates := by
  have h : ∀ i j : Fin 64, i ≠ j → (bound.slotMap.entries[i].all fun x => bound.slotMap.entries[j].all fun y =>
      decide (x.slot ≠ y.slot) && decide (x.role ≠ y.role)) = true := by decide +kernel
  intro i j hij x y hx hy
  have := h i j hij
  rw [hx, hy] at this
  simpa using this

theorem witness_StepKeepsTheBlocksSound :
    suspecting.Bounded ∧ suspecting.TimersSound ∧ suspecting.MonitorSound ∧ suspecting.UnconfiguredIdle
      ∧ ∃ t, step { dev := suspecting, pending := [.confirmationExpiry] } = .next t :=
  ⟨by unfold Device.Bounded; decide +kernel,
    fun k => ⟨by revert k; decide +kernel, by revert k; decide +kernel, by revert k; decide +kernel, by revert k; decide +kernel⟩,
    ⟨by decide +kernel, by decide +kernel, by decide +kernel, by decide +kernel⟩, fun h => absurd h (by decide +kernel), _, rfl⟩

end Sys2Proof.Tests
end

/-! The settlement of the terms: a pass over the terms in ascending order leaves each at the entry that its inputs select (R123, R124). -/

namespace Sys2Proof.Machine

/-! ## Condition levels and the entries of terms -/

/-- R123: the entry that a term selects depends on the levels of its inputs alone. -/
theorem Device.selected_congr {d d' : Device} {t : Term} (h : ∀ c ∈ t.inputs, d'.level c = d.level c) :
    d'.selected t = d.selected t := by
  simp only [Term.inputs, List.mem_cons, List.not_mem_nil, or_false, forall_eq_or_imp, forall_eq] at h
  obtain ⟨ha, hb, hc, hd⟩ := h
  simp only [Device.selected, Device.entryIndex, ha, hb, hc, hd]

/-- A condition that is no term has a level that the terms do not decide. -/
theorem Device.level_setTerms (d : Device) (ts : Vector Term 8) {c : Cond} (h : c.isTerm = false) :
    ({ d with terms := ts } : Device).level c = d.level c := by
  cases c <;> first | rfl | cases h

/-- Only the term `j` may differ, and with it the levels that read it. -/
structure OnlyTerm (j : Fin 8) (d d' : Device) : Prop where
  others : ∀ i : Fin 8, i ≠ j → d'.terms[i] = d.terms[i]
  levels : ∀ c : Cond, c.isTerm = false → d'.level c = d.level c

theorem OnlyTerm.of_setTerm (d : Device) (j : Fin 8) (t : Term) : OnlyTerm j d (d.setTerm j t) :=
  ⟨fun _ h => d.setTerm_read_ne t h, fun _ h => d.level_setTerms _ h⟩

theorem OnlyTerm.refl (j : Fin 8) (d : Device) : OnlyTerm j d d := ⟨fun _ _ => rfl, fun _ _ => rfl⟩

/-- Events have no part in any level. -/
theorem Device.level_setEvents (d : Device) (q : EventQueue) (c : Cond) : ({ d with events := q } : Device).level c = d.level c := by
  cases c <;> rfl

theorem Device.changeTerm_eq (d : Device) (j : Fin 8) (v : Bool) :
    ∃ q, d.changeTerm j v = { d.setTerm j { d.terms[j] with value := v } with events := q } := by
  unfold Device.changeTerm
  dsimp only
  split
  · exact ⟨_, rfl⟩
  · exact ⟨d.events, rfl⟩

@[simp] theorem Device.changeTerm_read (d : Device) (j : Fin 8) (v : Bool) :
    (d.changeTerm j v).terms[j] = { d.terms[j] with value := v } := by
  obtain ⟨q, h⟩ := d.changeTerm_eq j v
  rw [h]
  exact d.setTerm_read j _

theorem OnlyTerm.of_changeTerm (d : Device) (j : Fin 8) (v : Bool) : OnlyTerm j d (d.changeTerm j v) := by
  obtain ⟨q, h⟩ := d.changeTerm_eq j v
  rw [h]
  exact ⟨fun _ hi => d.setTerm_read_ne _ hi, fun c hc => (Device.level_setEvents _ q c).trans (d.level_setTerms _ hc)⟩

/-- The conditions below a term keep their level where no term below it changes. -/
theorem Device.level_below {d d' : Device} {j : Fin 8} (ht : ∀ i : Fin 8, i < j → d'.terms[i] = d.terms[i])
    (hl : ∀ c : Cond, c.isTerm = false → d'.level c = d.level c) {c : Cond} (hc : c.below j = true) : d'.level c = d.level c := by
  cases c
  case term i =>
    have hi : i < j := by simpa [Cond.below] using hc
    show d'.terms[i].value = d.terms[i].value
    rw [ht i hi]
  all_goals exact hl _ rfl

/-- What a step of an ascending pass over the terms establishes at its own term, and what later steps leave standing, holds of every term
after the pass. -/
theorem foldl_terms {σ : Type} (dev : σ → Device) (f : σ → Fin 8 → σ) (t0 : Fin 8 → Term) (G : Device → Fin 8 → Prop)
    (stable : ∀ d d' : Device, ∀ j : Fin 8, (∀ i : Fin 8, i ≤ j → d'.terms[i] = d.terms[i]) →
      (∀ c : Cond, c.isTerm = false → d'.level c = d.level c) → G d j → G d' j)
    (step : ∀ p j, (dev p).terms[j] = t0 j → OnlyTerm j (dev p) (dev (f p j)) ∧ G (dev (f p j)) j)
    (p : σ) (h0 : ∀ j : Fin 8, (dev p).terms[j] = t0 j) (j : Fin 8) : G (dev ((List.finRange 8).foldl f p)) j := by
  have pass : ∀ (js : List (Fin 8)) (p : σ), js.Pairwise (· < ·) → (∀ i ∉ js, ∀ j ∈ js, i < j) → (∀ j ∈ js, (dev p).terms[j] = t0 j) →
      (∀ i ∉ js, G (dev p) i) → ∀ i, G (dev (js.foldl f p)) i := by
    intro js
    induction js with
    | nil => intro p _ _ _ hG i; exact hG i (List.not_mem_nil)
    | cons j js ih =>
      intro p hs hlow hwait hG
      rw [List.pairwise_cons] at hs
      obtain ⟨honly, hnew⟩ := step p j (hwait j List.mem_cons_self)
      refine ih (f p j) hs.2 ?_ ?_ ?_
      · intro i hi k hk
        rcases eq_or_ne i j with rfl | hij
        · exact hs.1 k hk
        · exact hlow i (by simp [hij, hi]) k (List.mem_cons_of_mem _ hk)
      · intro k hk
        rw [honly.others k (hs.1 k hk).ne']
        exact hwait k (List.mem_cons_of_mem _ hk)
      · intro i hi
        rcases eq_or_ne i j with rfl | hij
        · exact hnew
        · have hmem : i ∉ j :: js := by simp [hij, hi]
          have hlt : i < j := hlow i hmem j List.mem_cons_self
          exact stable _ _ i (fun k hk => honly.others k (lt_of_le_of_lt hk hlt).ne) honly.levels (hG i hmem)
  refine pass (List.finRange 8) p (List.pairwise_lt_finRange 8) (fun i hi => absurd (List.mem_finRange i) hi) (fun j _ => h0 j)
    (fun i hi => absurd (List.mem_finRange i) hi) j

/-! ## The settlement -/

/-- R122, R123, R124: one term reads only terms below it, and its value is the entry that its inputs select unless its change is deferred. -/
def Device.TermSettled (d : Device) (j : Fin 8) : Prop :=
  (∀ c ∈ d.terms[j].inputs, c.below j = true) ∧ (d.terms[j].deferred = false → d.terms[j].value = d.selected d.terms[j])

/-- A term stays settled where neither it nor a term below it changes, nor the level of any other condition. -/
theorem Device.TermSettled.congr {d d' : Device} {j : Fin 8} (ht : ∀ i : Fin 8, i ≤ j → d'.terms[i] = d.terms[i])
    (hl : ∀ c : Cond, c.isTerm = false → d'.level c = d.level c) (h : d.TermSettled j) : d'.TermSettled j := by
  obtain ⟨hb, hv⟩ := h
  unfold Device.TermSettled
  rw [ht j le_rfl]
  refine ⟨hb, fun hd => ?_⟩
  rw [hv hd]
  exact (Device.selected_congr fun c hc => Device.level_below (fun i hi => ht i hi.le) hl (hb c hc)).symm

/-- R123, R127: writing the selected entry into a term settles it, since it reads only terms below it. -/
theorem Device.selected_below {d d' : Device} {j : Fin 8} {t : Term} (h : OnlyTerm j d d') (hb : ∀ c ∈ t.inputs, c.below j = true) :
    d'.selected t = d.selected t :=
  Device.selected_congr fun c hc => Device.level_below (fun i hi => h.others i hi.ne) h.levels (hb c hc)

/-- R123, R124: one term's examination settles it, where it was settled before the change or has been settled at it. -/
theorem settleTerm_settles (d0 : Device) (p : Device × TermSet) (j : Fin 8) (hb : ∀ c ∈ p.1.terms[j].inputs, c.below j = true)
    (hv : p.1.terms[j].deferred = false → p.1.terms[j].value = d0.selected p.1.terms[j]) :
    OnlyTerm j p.1 (settleTerm d0 p j).1 ∧ (settleTerm d0 p j).1.TermSettled j := by
  by_cases h1 : (p.1.terms[j].inputs.any fun c => d0.level c != p.1.level c) = true
  · by_cases h2 : p.1.selected p.1.terms[j] = p.1.terms[j].value
    · have he : settleTerm d0 p j = p := by simp only [settleTerm, h1, h2, if_true]
      rw [he]
      exact ⟨OnlyTerm.refl j _, hb, fun _ => h2.symm⟩
    · by_cases h3 : p.2.getLsbD j.val = true
      · have he : (settleTerm d0 p j).1 = p.1.setTerm j { p.1.terms[j] with deferred := true } := by
          simp only [settleTerm, h1, h2, h3, if_true, if_false]
        rw [he]
        refine ⟨OnlyTerm.of_setTerm _ _ _, ?_⟩
        unfold Device.TermSettled
        rw [Device.setTerm_read]
        exact ⟨hb, fun h => absurd h (by simp)⟩
      · have he : (settleTerm d0 p j).1 = p.1.changeTerm j (p.1.selected p.1.terms[j]) := by
          simp only [settleTerm, h1, h2, h3, if_true, if_false]; rfl
        have ho := OnlyTerm.of_changeTerm p.1 j (p.1.selected p.1.terms[j])
        rw [he]
        refine ⟨ho, ?_⟩
        unfold Device.TermSettled
        rw [Device.changeTerm_read]
        exact ⟨hb, fun _ => (Device.selected_below ho (t := { p.1.terms[j] with value := _ }) hb).symm⟩
  · have he : settleTerm d0 p j = p := by simp only [settleTerm, h1]; rfl
    rw [he]
    refine ⟨OnlyTerm.refl j _, hb, fun hd => ?_⟩
    rw [hv hd]
    refine Device.selected_congr fun c hc => ?_
    simp only [List.any_eq_true, bne_iff_ne, ne_eq, not_exists, not_and, not_not] at h1
    exact h1 c hc

/-- What a change must leave of each term for the settlement to settle them all: it reads only terms below it, and its value is the entry
selected before the change, unless its change is deferred. -/
def Device.ReadyToSettle (d0 d : Device) : Prop :=
  ∀ j : Fin 8, (∀ c ∈ d.terms[j].inputs, c.below j = true)
    ∧ (d.terms[j].deferred = false → d.terms[j].value = d0.selected d.terms[j])

/-- R123: after a settlement every term is settled. -/
theorem settle_settles {d0 d : Device} (h : d0.ReadyToSettle d) (m : TermSet) : (settle d0 d m).1.TermsSettled := by
  intro j
  have step : ∀ (p : Device × TermSet) (j : Fin 8), p.1.terms[j] = d.terms[j] →
      OnlyTerm j p.1 (settleTerm d0 p j).1 ∧ (settleTerm d0 p j).1.TermSettled j := fun p j hp => by
    obtain ⟨hb, hv⟩ := h j
    rw [← hp] at hb hv
    exact settleTerm_settles d0 p j hb hv
  unfold settle
  exact foldl_terms Prod.fst (settleTerm d0) (fun j => d.terms[j]) Device.TermSettled (fun _ _ _ => Device.TermSettled.congr) step
    (d, m) (fun _ => rfl) j

/-- The terms, and the level of every condition, are the same. -/
structure SameTerms (d d' : Device) : Prop where
  terms : d'.terms = d.terms
  level : ∀ c, c.isTerm = false → d'.level c = d.level c

/-- Settled terms stay settled where no condition changes. -/
theorem Device.TermsSettled.congr {d d' : Device} (h : d.TermsSettled) (s : SameTerms d d') : d'.TermsSettled :=
  fun j => Device.TermSettled.congr (fun i _ => by rw [s.terms]) s.level (h j)

/-- A change that leaves the terms is ready to settle. -/
theorem Device.TermsSettled.ready {d0 d : Device} (h : d0.TermsSettled) (ht : d.terms = d0.terms) : d0.ReadyToSettle d := by
  intro j
  rw [ht]
  exact h j

/-- R131, R188: the permit, the events and the choices have no part in any term. -/
theorem SameTerms.of_rest (d : Device) (p : Permit) (q : EventQueue) (o : Choices) :
    SameTerms d { d with permit := p, events := q, choices := o } := ⟨rfl, fun c _ => by cases c <;> rfl⟩

theorem Device.dropPermit_eq (d : Device) : ∃ p, d.dropPermit = { d with permit := p } := by
  rcases d.dropPermit_cases with ⟨h, -⟩ | ⟨-, -, h⟩
  · exact ⟨d.permit, h⟩
  · exact ⟨_, h⟩

/-- R123: an effect that is ready to settle leaves every term settled. -/
theorem settled_settles {d0 : Device} {e : Effect} (h : d0.ReadyToSettle e.dev) (m : TermSet) : (settled d0 e m).TermsSettled := by
  have hs := settle_settles h m
  have hc := settleAndDrop_cases d0 e.dev m
  unfold settled
  generalize (settle d0 e.dev m).1 = d1 at hs hc
  rcases hc with ⟨hd, -⟩ | ⟨-, o, hd, -⟩ | ⟨hf, -, o, n, hd, -⟩
  · rw [hd]; exact hs
  · rw [hd]; exact hs.congr (SameTerms.of_rest d1 _ d1.events _)
  · obtain ⟨q, hq⟩ := Device.dropAmongTerms_frame d0 e.dev { d1 with choices := o } n hf
    rw [hd, hq]
    exact hs.congr (SameTerms.of_rest d1 _ _ _)
end Sys2Proof.Machine

/-! What one event changes, and what it leaves alone, block by block. -/

namespace Sys2Proof.Machine

/-! ## What one event can change -/

/-- Only the Speed Tracker may differ. -/
def OnlySpeed (d d' : Device) : Prop := ∃ s, d' = { d with speed := s }

/-- The parts of the device that an event may change by itself. -/
def Job.Frame (d d' : Device) : Job → Prop
  | .timeoutTick | .linkGood | .linkBad => OnlyLink d d'
  | .channelTick _ | .channelSample _ _ | .permitDropped _ _ => OnlyEvents d d'
  | .channelChange c x _ => d' = d.setChannel c x
  | .speedLoss | .speedSample => OnlySpeed d d'
  | .zoneValidity _ _ | .zoneDemand _ _ | .zoneTick _ | .zoneArrival _ | .zonesBreak => OnlyZones d d'
  | .timerEdge _ _ _ | .timerClock _ _ => OnlyTimers d d'
  | .deferredTerm _ => OnlyTerms d d'
  | .hardRise _ _ | .softRise _ | .softFall | .monitorTick => OnlyMonitor d d'
  | .captureTrigger _ | .captureRecord _ => OnlyCapture d d'
  | .controlWord w => d' = { d with
      port := { d.port with permitRequest := w.getLsbD 0, triggerRequest := w.getLsbD 1 }
      capture := { d.capture with lastRequest := w.getLsbD 1 } }
  | .breakWord w => d' = { d with monitor := { d.monitor with lastNotice := highByte w, lastAssert := lowByte w } }
  | .markLevel level => d' = { d with lines := { d.lines with mark := some level } }
  | .wbrkLevel level => d' = { d with lines := { d.lines with wbrk := some level } }
  | .command => d' = d

/-- Each event changes only its own block. -/
theorem act_frame (ws : List Job) (d : Device) (j : Job) : j.Frame d (act ws d j).dev := by
  cases j <;> simp only [act, Job.Frame]
  case timeoutTick => exact Device.timeoutTick_frame d
  case linkGood => exact d.linkGood_frame
  case linkBad => exact d.linkBad_frame
  case channelTick c => exact d.announceChannel_frame c d.channels[c].tick d.channels[c].tickValidities
  case channelSample c w => exact d.announceChannel_frame c (d.channels[c].takeSample w) (sampleValidities d.channels[c] w)
  case speedLoss => exact ⟨_, rfl⟩
  case speedSample => exact d.speedSample_frame
  case zoneValidity z v => exact d.zoneSeesValidity_frame z v _
  case zoneDemand z b => exact d.zoneSeesDemand_frame z b
  case zoneTick z => exact d.zoneTick_frame z
  case zoneArrival z => exact d.zoneArrival_frame z
  case zonesBreak => exact d.zonesSeeBreak_frame
  case timerEdge k c b => exact d.edgeTimer_frame k c b
  case timerClock k s => exact d.clockTimer_frame k s
  case deferredTerm j => exact d.settleDeferred_frame j
  case hardRise c n => exact d.declareBreak_frame c _
  case softRise n => exact d.enterSuspect_frame _
  case softFall => exact d.clearSuspect_frame
  case monitorTick => exact d.monitorTick_frame
  case captureTrigger ns => exact d.captureTriggers_frame ns
  case captureRecord g => exact d.recordCompletion_frame g
  case channelChange c x vs => rfl
  case controlWord w => rfl
  case permitDropped n r => exact d.raise_frame .permitDropped n (natWord r)

/-- The device that an event leaves once its change has settled: beside what the event itself may change, the terms, the permit, the event queue and
the model's choices may differ. -/
theorem settled_act_frame (ws : List Job) (d : Device) (j : Job) (m : TermSet) :
    ∃ d', j.Frame d d' ∧ ∃ t p q o, settled d (act ws d j) m = { d' with terms := t, permit := p, events := q, choices := o } :=
  ⟨_, act_frame ws d j, settled_frame d (act ws d j) m⟩

/-- The blocks of the device, as the events that change them. -/
def Job.movesChannels : Job → Bool
  | .channelChange _ _ _ => true
  | _ => false

def Job.movesLines : Job → Bool
  | .markLevel _ | .wbrkLevel _ => true
  | _ => false

def Job.movesLink : Job → Bool
  | .timeoutTick | .linkGood | .linkBad => true
  | _ => false

def Job.movesControl : Job → Bool
  | .controlWord _ => true
  | _ => false

def Job.movesZones : Job → Bool
  | .zoneValidity _ _ | .zoneDemand _ _ | .zoneTick _ | .zoneArrival _ | .zonesBreak => true
  | _ => false

def Job.movesTimers : Job → Bool
  | .timerEdge _ _ _ | .timerClock _ _ => true
  | _ => false

def Job.movesCapture : Job → Bool
  | .captureTrigger _ | .captureRecord _ | .controlWord _ => true
  | _ => false

/-- The event may change the state of the Monitor or the actuators' phases, or the break word that the Monitor holds. -/
def Job.movesMonitor : Job → Bool
  | .hardRise _ _ | .softRise _ | .softFall | .monitorTick | .breakWord _ => true
  | _ => false

/-- What an event leaves alone, part by part. -/
structure Job.Spares (j : Job) (d d' : Device) : Prop where
  lines : j.movesLines = false → d'.lines = d.lines
  link : j.movesLink = false → d'.port.link = d.port.link
  badRun : j.movesLink = false → d'.port.badRun = d.port.badRun
  countdown : j.movesLink = false → d'.port.timeoutCountdown = d.port.timeoutCountdown
  permitRequest : j.movesControl = false → d'.port.permitRequest = d.port.permitRequest
  triggerRequest : j.movesControl = false → d'.port.triggerRequest = d.port.triggerRequest
  cycleCount : d'.port.cycleCount = d.port.cycleCount
  frame : d'.port.frame = d.port.frame
  slotMap : d'.slotMap = d.slotMap
  channels : j.movesChannels = false → d'.channels = d.channels
  speed : j.ofTracker = false → d'.speed = d.speed
  shadow : d'.profile.shadow = d.profile.shadow
  active : d'.profile.active = d.profile.active
  zones : j.movesZones = false → d'.zones = d.zones
  commit : j.movesZones = false → d'.profile.commit = d.profile.commit
  mailbox : j.movesZones = false → d'.mailbox = d.mailbox
  timers : j.movesTimers = false → d'.timers = d.timers
  monitor : j.movesMonitor = false → d'.monitor = d.monitor
  actuators : j.ofMonitor = false → d'.actuators = d.actuators
  capture : j.movesCapture = false → d'.capture = d.capture
  node : d'.mailbox.nodeAddress = d.mailbox.nodeAddress
  written : d'.mailbox.written = d.mailbox.written
  ready : d'.mailbox.ready = d.mailbox.ready
  breakMet : j.movesZones = false → d'.breakMet = d.breakMet

theorem Job.Frame.spares {j : Job} {d d' : Device} (h : j.Frame d d') : j.Spares d d' := by
  cases j <;> dsimp only [Job.Frame] at h
  case timeoutTick | linkGood | linkBad =>
    obtain ⟨_, _, _, _, rfl⟩ := h
    constructor <;> first | exact fun h => Bool.noConfusion h | exact fun _ => rfl | exact rfl
  case channelTick | channelSample | permitDropped =>
    obtain ⟨_, rfl⟩ := h
    constructor <;> first | exact fun h => Bool.noConfusion h | exact fun _ => rfl | exact rfl
  case speedLoss | speedSample =>
    obtain ⟨_, rfl⟩ := h
    constructor <;> first | exact fun h => Bool.noConfusion h | exact fun _ => rfl | exact rfl
  case zoneValidity | zoneDemand | zoneTick | zoneArrival | zonesBreak =>
    obtain ⟨_, _, _, _, _, _, _, rfl⟩ := h
    constructor <;> first | exact fun h => Bool.noConfusion h | exact fun _ => rfl | exact rfl
  case timerEdge | timerClock =>
    obtain ⟨_, rfl⟩ := h
    constructor <;> first | exact fun h => Bool.noConfusion h | exact fun _ => rfl | exact rfl
  case deferredTerm =>
    obtain ⟨_, _, rfl⟩ := h
    constructor <;> first | exact fun h => Bool.noConfusion h | exact fun _ => rfl | exact rfl
  case hardRise | softRise | softFall | monitorTick =>
    obtain ⟨_, _, _, rfl⟩ := h
    constructor <;> first | exact fun h => Bool.noConfusion h | exact fun _ => rfl | exact rfl
  case captureTrigger | captureRecord =>
    obtain ⟨_, _, rfl⟩ := h
    constructor <;> first | exact fun h => Bool.noConfusion h | exact fun _ => rfl | exact rfl
  case channelChange | controlWord | breakWord | markLevel | wbrkLevel | command =>
    subst h
    constructor <;> first | exact fun h => Bool.noConfusion h | exact fun _ => rfl | exact rfl

/-- What an event, its settlement included, leaves alone. -/
theorem settled_act_spares (ws : List Job) (d : Device) (j : Job) (m : TermSet) : j.Spares d (settled d (act ws d j) m) := by
  obtain ⟨d', hf, t, p, q, o, hs⟩ := settled_act_frame ws d j m
  rw [hs]
  exact ⟨hf.spares.lines, hf.spares.link, hf.spares.badRun, hf.spares.countdown, hf.spares.permitRequest, hf.spares.triggerRequest, hf.spares.cycleCount,
    hf.spares.frame, hf.spares.slotMap, hf.spares.channels, hf.spares.speed, hf.spares.shadow, hf.spares.active, hf.spares.zones, hf.spares.commit,
    hf.spares.mailbox, hf.spares.timers, hf.spares.monitor, hf.spares.actuators, hf.spares.capture, hf.spares.node, hf.spares.written, hf.spares.ready,
    hf.spares.breakMet⟩

end Sys2Proof.Machine

/-! Every event, and SOFT_RESET, leaves the terms settled (R122, R123, R124, R187). -/

namespace Sys2Proof.Machine

/-- Only a deferred term's own event changes a term by itself. -/
theorem act_terms (ws : List Job) (d : Device) {j : Job} (h : ∀ i, j ≠ .deferredTerm i) : (act ws d j).dev.terms = d.terms := by
  have hf := act_frame ws d j
  generalize (act ws d j).dev = d' at hf
  cases j <;> dsimp only [Job.Frame] at hf
  case deferredTerm i => exact absurd rfl (h i)
  case timeoutTick | linkGood | linkBad => obtain ⟨_, _, _, _, rfl⟩ := hf; rfl
  case zoneValidity | zoneDemand | zoneTick | zoneArrival | zonesBreak => obtain ⟨_, _, _, _, _, _, _, rfl⟩ := hf; rfl
  case hardRise | softRise | softFall | monitorTick => obtain ⟨_, _, _, rfl⟩ := hf; rfl
  case captureTrigger | captureRecord => obtain ⟨_, _, rfl⟩ := hf; rfl
  case channelTick | channelSample | permitDropped | speedLoss | speedSample | timerEdge | timerClock => obtain ⟨_, rfl⟩ := hf; rfl
  case channelChange | controlWord | breakWord | markLevel | wbrkLevel | command => subst hf; rfl

/-- A term that is rewritten to the entry that it selects is ready to settle with the others. -/
theorem Device.TermsSettled.ready_rewritten {d d' : Device} (h : d.TermsSettled) {j : Fin 8} (ho : OnlyTerm j d d')
    (hb : ∀ c ∈ d'.terms[j].inputs, c.below j = true) (hv : d'.terms[j].value = d.selected d'.terms[j]) : d.ReadyToSettle d' := by
  intro i
  rcases eq_or_ne i j with rfl | hi
  · exact ⟨hb, fun _ => hv⟩
  · rw [ho.others i hi]
    exact h i

/-- R124: the event of a deferred term is ready to settle. -/
theorem Device.TermsSettled.ready_deferred {d : Device} (h : d.TermsSettled) (j : Fin 8) : d.ReadyToSettle (d.settleDeferred j) := by
  unfold Device.settleDeferred
  dsimp only
  split
  · split
    · next hs =>
      refine h.ready_rewritten (OnlyTerm.of_setTerm _ _ _) ?_ ?_ <;> rw [Device.setTerm_read]
      · exact (h j).1
      · exact hs.symm
    · have ho : OnlyTerm j d ((d.setTerm j { d.terms[j] with deferred := false }).changeTerm j (d.selected d.terms[j])) := by
        obtain ⟨o1, l1⟩ := OnlyTerm.of_setTerm d j { d.terms[j] with deferred := false }
        obtain ⟨o2, l2⟩ := OnlyTerm.of_changeTerm (d.setTerm j { d.terms[j] with deferred := false }) j (d.selected d.terms[j])
        exact ⟨fun i hi => (o2 i hi).trans (o1 i hi), fun c hc => (l2 c hc).trans (l1 c hc)⟩
      refine h.ready_rewritten ho ?_ ?_ <;> rw [Device.changeTerm_read, Device.setTerm_read]
      · exact (h j).1
      · rfl
  · exact h.ready rfl

/-- R127: a rewritten term takes the entry that its new fields select. -/
theorem Device.TermsSettled.ready_written {d : Device} (h : d.TermsSettled) {j : Fin 8} {t : Term}
    (hb : ∀ c ∈ t.inputs, c.below j = true) : d.ReadyToSettle (d.rewriteTerm j t) := by
  unfold Device.rewriteTerm
  dsimp only
  generalize ht : ({ t with value := d.terms[j].value, deferred := false } : Term) = t1
  have hin : t1.inputs = t.inputs := by subst ht; rfl
  have hsel : ∀ d1 : Device, d1.selected t = d1.selected t1 := fun d1 => by subst ht; rfl
  have ho1 := OnlyTerm.of_setTerm d j t1
  have hd : (d.setTerm j t1).selected t = d.selected t := Device.selected_below ho1 hb
  split
  · next hs =>
    refine h.ready_rewritten ho1 ?_ ?_ <;> rw [Device.setTerm_read]
    · rw [hin]; exact hb
    · rw [← hsel, ← hd, hs, ← ht]
  · have ho : OnlyTerm j d ((d.setTerm j t1).changeTerm j ((d.setTerm j t1).selected t)) := by
      obtain ⟨o1, l1⟩ := ho1
      obtain ⟨o2, l2⟩ := OnlyTerm.of_changeTerm (d.setTerm j t1) j ((d.setTerm j t1).selected t)
      exact ⟨fun i hi => (o2 i hi).trans (o1 i hi), fun c hc => (l2 c hc).trans (l1 c hc)⟩
    refine h.ready_rewritten ho ?_ ?_ <;> rw [Device.changeTerm_read, Device.setTerm_read]
    · exact hin ▸ hb
    · rw [hd, hsel]; rfl

/-- R123, R124: every event leaves the terms settled. -/
theorem Device.TermsSettled.event {d : Device} (h : d.TermsSettled) (ws : List Job) (j : Job) (m : TermSet) :
    (settled d (act ws d j) m).TermsSettled := by
  by_cases hj : ∃ i, j = .deferredTerm i
  · obtain ⟨i, rfl⟩ := hj
    exact settled_settles (e := act ws d (.deferredTerm i)) (h.ready_deferred i) m
  · exact settled_settles (h.ready (act_terms ws d fun i hi => hj ⟨i, hi⟩)) m

/-- R187: at SOFT_RESET every term takes the entry that its inputs select. -/
theorem settleAtReset_terms (d : Device) (hb : ∀ j : Fin 8, ∀ c ∈ d.terms[j].inputs, c.below j = true) (j : Fin 8) :
    (settleAtReset d).terms[j] = { d.terms[j] with value := (settleAtReset d).selected d.terms[j], deferred := false } := by
  unfold settleAtReset
  refine foldl_terms id (fun (d1 : Device) (j : Fin 8) => d1.setTerm j { d1.terms[j] with value := d1.selected d1.terms[j], deferred := false })
    (fun j => d.terms[j]) (fun d1 j => d1.terms[j] = { d.terms[j] with value := d1.selected d.terms[j], deferred := false }) ?_ ?_ d
    (fun _ => rfl) j
  · intro d1 d2 j ht hl h
    have hs : d2.selected d.terms[j] = d1.selected d.terms[j] :=
      Device.selected_congr fun c hc => Device.level_below (fun i hi => ht i hi.le) hl (hb j c hc)
    rw [ht j le_rfl, h, hs]
  · intro d1 j h
    dsimp only [id] at h ⊢
    have ho := OnlyTerm.of_setTerm d1 j { d1.terms[j] with value := d1.selected d1.terms[j], deferred := false }
    refine ⟨ho, ?_⟩
    rw [Device.setTerm_read, Device.selected_below ho (hb j), h]
end Sys2Proof.Machine

/-! What the rule of each mailbox command does to the Slot Map, the profile banks and the terms. -/

namespace Sys2Proof.Machine

/-! ## What a command stores -/

theorem SameTerms.refl (d : Device) : SameTerms d d := ⟨rfl, fun _ _ => rfl⟩

theorem SameTerms.trans {a b c : Device} (h : SameTerms a b) (k : SameTerms b c) : SameTerms a c :=
  ⟨k.terms.trans h.terms, fun x hx => (k.level x hx).trans (h.level x hx)⟩

/-- A channel that offers the same conditions. -/
theorem SameTerms.of_setChannel (d : Device) (c : Fin 32) (x : Channel) (hi : x.hiSet = d.channels[c].hiSet)
    (lo : x.loSet = d.channels[c].loSet) (hv : x.validity = d.channels[c].validity)
    (hd : x.discreteLevel = d.channels[c].discreteLevel) : SameTerms d (d.setChannel c x) := by
  refine ⟨rfl, fun y _ => ?_⟩
  cases y
  case chanHi i => simp only [Device.level, Device.setChannel_get]; split <;> simp_all
  case chanLo i => simp only [Device.level, Device.setChannel_get]; split <;> simp_all
  case chanFailed i => simp only [Device.level, Device.setChannel_get]; split <;> simp_all
  case chanDiscrete i => simp only [Device.level, Device.setChannel_get]; split <;> simp_all
  all_goals rfl

/-- A zone in the same mode. -/
theorem SameTerms.of_setZone (d : Device) (z : Fin 12) (x : Zone) (h : x.mode = d.zones[z].mode) : SameTerms d (d.setZone z x) := by
  refine ⟨rfl, fun y _ => ?_⟩
  cases y
  case zoneFault i => simp only [Device.level, Device.setZone_get]; split <;> simp_all
  case zoneHold i => simp only [Device.level, Device.setZone_get]; split <;> simp_all
  all_goals rfl

/-- A unit with the same output. -/
theorem SameTerms.of_setTimer (d : Device) (k : Fin 6) (x : Timer) (h : x.output = d.timers[k].output) : SameTerms d (d.setTimer k x) := by
  refine ⟨rfl, fun y _ => ?_⟩
  cases y
  case timer i => simp only [Device.level, Device.setTimer_get]; split <;> simp_all
  all_goals rfl

/-- R4, R5: what a command may leave of the Slot Map's entries: they stand, one is emptied, or one is bound without a conflict. -/
def SlotMap.Written (m m' : SlotMap) : Prop :=
  m'.entries = m.entries
    ∨ ∃ i : Fin 64, ∃ e : Option SlotEntry, m'.entries = m.entries.set i e ∧ ∀ x, e = some x → m.conflicts i x = false

/-- R56, R57: what a command may leave of the SHADOW bank: it stands, or one curve has been loaded from accepted words. -/
def ProfileStore.Loaded (p p' : ProfileStore) : Prop :=
  p'.shadow = p.shadow
    ∨ ∃ (c : Fin 12) (h : Word) (ws : Vector Word 9), profileAccepted h ws = true
        ∧ p'.shadow = p.shadow.set c (p.shadow[c].write (headerFirst h) (headerCount h) (headerLength h) (profilePoint ws))

/-- A command that stores: no condition changes, and of the tables at most one entry of the Slot Map or one SHADOW curve. -/
structure Stored (d d' : Device) : Prop where
  terms : SameTerms d d'
  slotMap : d.slotMap.Written d'.slotMap
  shadow : d.profile.Loaded d'.profile
  active : d'.profile.active = d.profile.active

/-- An originating change of a command: the tables stand, and settled terms are ready to settle. -/
structure Changed (d d' : Device) : Prop where
  slotMap : d'.slotMap = d.slotMap
  shadow : d'.profile.shadow = d.profile.shadow
  active : d'.profile.active = d.profile.active
  terms : d.TermsSettled → d.ReadyToSettle d'

/-- What a command's rule may do to the tables. -/
def Reply.Sound (d : Device) : Reply → Prop
  | .answer _ _ => True
  | .store d1 _ => Stored d d1
  | .settled e _ => Changed d e.dev
  | .waits d1 => d1 = d ∨ d.profileFault = none ∧ ∃ tag, d1 = d.commitCopy tag

/-- A store beside the tables and the conditions. -/
theorem Stored.of_terms {d d' : Device} (h : SameTerms d d') (hs : d'.slotMap = d.slotMap) (hp : d'.profile = d.profile) : Stored d d' :=
  ⟨h, .inl (by rw [hs]), .inl (by rw [hp]), by rw [hp]⟩

theorem Changed.of_same {d d' : Device} (ht : d'.terms = d.terms) (hs : d'.slotMap = d.slotMap) (hp : d'.profile = d.profile) :
    Changed d d' := ⟨hs, by rw [hp], by rw [hp], fun h => h.ready ht⟩

theorem Changed.of_zones {d d' : Device} (h : OnlyZones d d') : Changed d d' := by
  obtain ⟨_, _, _, _, _, _, _, rfl⟩ := h
  exact ⟨rfl, rfl, rfl, fun h => h.ready rfl⟩

theorem Changed.of_monitor {d d' : Device} (h : OnlyMonitor d d') : Changed d d' := by
  obtain ⟨_, _, _, rfl⟩ := h
  exact .of_same rfl rfl rfl

theorem Changed.of_capture {d d' : Device} (h : OnlyCapture d d') : Changed d d' := by
  obtain ⟨_, _, rfl⟩ := h
  exact .of_same rfl rfl rfl

section
variable (d : Device)

theorem replyWriteSlotMap_sound (r : Byte) (slot kind index : Word) : (d.replyWriteSlotMap r slot kind index).Sound d := by
  unfold Device.replyWriteSlotMap Device.replyWriteLinkRecord
  split
  · split
    · trivial
    · split
      · exact ⟨⟨rfl, fun c _ => by cases c <;> rfl⟩, .inl rfl, .inl rfl, rfl⟩
      · trivial
  · split
    · trivial
    · split
      · trivial
      · next i _ =>
        have same : ∀ e, SameTerms d (d.setEntry i e) := fun e => ⟨rfl, fun c _ => by cases c <;> rfl⟩
        split
        · exact ⟨same _, .inr ⟨i, none, rfl, fun _ h => by cases h⟩, .inl rfl, rfl⟩
        · split
          · split
            · trivial
            · next h =>
              refine ⟨same _, .inr ⟨i, _, rfl, fun x hx => ?_⟩, .inl rfl, rfl⟩
              cases hx
              exact Bool.eq_false_iff.mpr h
          · trivial

theorem Channel.writeScale_same {x : Channel} {k : ChannelKind} (h : x.kind = k) (g o lo hi al : Int) :
    (x.writeScale k g o lo hi al).hiSet = x.hiSet ∧ (x.writeScale k g o lo hi al).loSet = x.loSet
      ∧ (x.writeScale k g o lo hi al).validity = x.validity ∧ (x.writeScale k g o lo hi al).discreteLevel = x.discreteLevel := by
  unfold Channel.writeScale
  rw [if_pos h]
  split
  · subst h; exact ⟨rfl, rfl, rfl, rfl⟩
  · subst h; exact ⟨rfl, rfl, rfl, rfl⟩

theorem replyWriteChannelScale_sound (r : Byte) (kind gain offset lo hi alpha : Word) :
    (d.replyWriteChannelScale r kind gain offset lo hi alpha).Sound d := by
  unfold Device.replyWriteChannelScale
  split
  · dsimp only
    split
    · split
      · next h =>
        obtain ⟨h1, h2, h3, h4⟩ := Channel.writeScale_same h (signed gain) (signed offset) (signed lo) (signed hi) (unsigned alpha)
        exact .of_terms (.of_setChannel d _ _ h1 h2 h3 h4) rfl rfl
      · split
        · trivial
        · exact .of_same rfl rfl rfl
    · trivial
  · trivial

/-- R27, R40: a LIMITS write that leaves a FAILED channel's state as it is changes no condition. -/
theorem Channel.writeLimits_same {x : Channel} {f : Bool} (h : ¬(x.validity = .failed ∧ x.failState ≠ f)) (st fl : Nat) (hi lo hy : Int)
    (en : Word) :
    let y := (x.writeLimits st fl hi lo hy f en).1
    y.hiSet = x.hiSet ∧ y.loSet = x.loSet ∧ y.validity = x.validity ∧ y.discreteLevel = x.discreteLevel := by
  dsimp only [Channel.writeLimits]
  rw [if_neg h]
  refine ⟨rfl, rfl, rfl, ?_⟩
  simp only [Channel.discreteLevel]
  cases hv : x.validity
  case failed =>
    have : x.failState = f := by by_contra hf; exact h ⟨hv, hf⟩
    simp [this]
  all_goals rfl

theorem replyWriteChannelLimits_sound (r : Byte) (a b e f g h i : Word) : (d.replyWriteChannelLimits r a b e f g h i).Sound d := by
  unfold Device.replyWriteChannelLimits
  split
  · dsimp only
    split
    · split
      · refine .of_same ?_ ?_ ?_ <;> simp
      · next hn =>
        obtain ⟨h1, h2, h3, h4⟩ := Channel.writeLimits_same hn a.toNat b.toNat (signed e) (signed f) (unsigned g) i
        exact .of_terms (.of_setChannel d _ _ h1 h2 h3 h4) rfl rfl
    · trivial
  · trivial

theorem replyWriteSpeedConfig_sound (r : Byte) (a b e f g : Word) : (d.replyWriteSpeedConfig r a b e f g).Sound d := by
  unfold Device.replyWriteSpeedConfig
  split
  · dsimp only
    split
    · split
      · next h =>
        refine .of_terms ⟨rfl, fun y _ => ?_⟩ rfl rfl
        cases y
        case speed i => simp only [Device.level, Speed.write, h, if_true]
        all_goals rfl
      · split
        · trivial
        · exact .of_same rfl rfl rfl
    · trivial
  · trivial

theorem replyWriteProfile_sound (h : Word) (ws : Vector Word 9) : (d.replyWriteProfile h ws).Sound d := by
  unfold Device.replyWriteProfile
  split
  · trivial
  · split
    · next c _ ha => exact ⟨⟨rfl, fun c _ => by cases c <;> rfl⟩, .inl rfl, .inr ⟨c, h, ws, ha, rfl⟩, rfl⟩
    · trivial

theorem replyWriteZone_sound (r : Byte) :
    (∀ a b e f g h i, (d.replyWriteZoneSetup r a b e f g h i).Sound d) ∧ (∀ a b e f g, (d.replyWriteZoneLoop r a b e f g).Sound d)
      ∧ ∀ a b e f, (d.replyWriteZoneSafety r a b e f).Sound d := by
  refine ⟨fun a b e f g h i => ?_, fun a b e f g => ?_, fun a b e f => ?_⟩
  · unfold Device.replyWriteZoneSetup
    split
    · split
      · split
        · trivial
        · exact .of_terms (.of_setZone d _ _ rfl) rfl rfl
      · trivial
    · trivial
  · unfold Device.replyWriteZoneLoop
    split
    · split
      · exact .of_terms (.of_setZone d _ _ rfl) rfl rfl
      · trivial
    · trivial
  · unfold Device.replyWriteZoneSafety
    split
    · split
      · exact .of_terms (.of_setZone d _ _ rfl) rfl rfl
      · trivial
    · trivial

theorem replySetZoneMode_sound (mask mode : Word) : (d.replySetZoneMode mask mode).Sound d := by
  unfold Device.replySetZoneMode
  split
  · trivial
  · split
    · trivial
    · split
      · trivial
      · exact .of_zones (d.commandZones_frame _ _)

theorem replyWriteTimer_sound (r : Byte) (a b e f g h : Word) : (d.replyWriteTimer r a b e f g h).Sound d := by
  unfold Device.replyWriteTimer
  split
  · split
    · dsimp only
      split
      · trivial
      · split
        · refine .of_terms (.of_setTimer d _ _ ?_) rfl rfl
          unfold Timer.writeN
          split <;> rfl
        · split
          · trivial
          · exact .of_same rfl rfl rfl
    · trivial
  · trivial

theorem Term.ofWords_below {j : Fin 8} {a b c d tb bd zm ef : Word} {t : Term} (h : Term.ofWords j a b c d tb bd zm ef = some t) :
    ∀ x ∈ t.inputs, x.below j = true := by
  unfold Term.ofWords at h
  split at h
  · split at h
    · split at h
      · next hb =>
        cases h
        simp only [Bool.and_eq_true] at hb
        obtain ⟨⟨⟨⟨h1, h2⟩, h3⟩, h4⟩, -⟩ := hb
        simp [Term.inputs, h1, h2, h3, h4]
      · cases h
    · cases h
  · cases h

theorem Device.rewriteTerm_frame (j : Fin 8) (t : Term) : OnlyTerms d (d.rewriteTerm j t) := by
  unfold Device.rewriteTerm
  dsimp only
  split
  · exact ⟨_, d.events, rfl⟩
  · obtain ⟨ts, q, h⟩ := Device.changeTerm_frame (d.setTerm j { t with value := d.terms[j].value, deferred := false }) j
      ((d.setTerm j { t with value := d.terms[j].value, deferred := false }).selected t)
    exact ⟨ts, q, h⟩

theorem replyWriteTerm_sound (r : Byte) (a b e f g h i k : Word) : (d.replyWriteTerm r a b e f g h i k).Sound d := by
  unfold Device.replyWriteTerm
  split
  · trivial
  · split
    · trivial
    · split
      · trivial
      · next j _ _ t ht =>
        have hf := d.rewriteTerm_frame j t
        have hr : d.TermsSettled → d.ReadyToSettle (d.rewriteTerm j t) := fun h => h.ready_written (Term.ofWords_below ht)
        show Changed d (d.rewriteTerm j t)
        generalize d.rewriteTerm j t = d1 at hf hr
        obtain ⟨_, _, rfl⟩ := hf
        exact ⟨rfl, rfl, rfl, hr⟩

theorem replyBreak_sound :
    (∀ r a b e f, (d.replyWriteBreakConfig r a b e f).Sound d) ∧ d.replyArmBreak.Sound d ∧ d.replyBreakNow.Sound d
      ∧ d.replyResetBreak.Sound d := by
  refine ⟨fun r a b e f => ?_, ?_, ?_, ?_⟩
  · unfold Device.replyWriteBreakConfig
    split
    · split
      · exact .of_same rfl rfl rfl
      · trivial
    · trivial
  · unfold Device.replyArmBreak
    split
    · trivial
    · split
      · trivial
      · exact .of_same rfl rfl rfl
  · unfold Device.replyBreakNow
    split
    · exact .of_monitor (d.declareBreak_frame _ _)
    · trivial
  · unfold Device.replyResetBreak
    split
    · trivial
    · split
      · trivial
      · split
        · trivial
        · exact .of_same rfl rfl rfl

theorem replyActuator_sound :
    (∀ r a b e f g h, (d.replyWriteActuatorSource r a b e f g h).Sound d) ∧ (∀ r a b e f, (d.replyWriteActuatorBreak r a b e f).Sound d)
      ∧ ∀ a v, (d.replySetOutput a v).Sound d := by
  have same : ∀ a x, Stored d (d.setActuator a x) := fun a x => .of_terms ⟨rfl, fun c _ => by cases c <;> rfl⟩ rfl rfl
  refine ⟨fun r a b e f g h => ?_, fun r a b e f => ?_, fun a v => ?_⟩
  · unfold Device.replyWriteActuatorSource
    split
    · dsimp only; split
      · exact same _ _
      · trivial
    · trivial
  · unfold Device.replyWriteActuatorBreak
    split
    · dsimp only; split
      · exact same _ _
      · trivial
    · trivial
  · unfold Device.replySetOutput
    split
    · trivial
    · dsimp only; split
      · trivial
      · exact same _ _

theorem SameTerms.of_capture (c : Capture) (h : c.state = d.capture.state) : SameTerms d { d with capture := c } := by
  refine ⟨rfl, fun y _ => ?_⟩
  cases y
  case captureFrozen => simp only [Device.level, h]
  all_goals rfl

theorem replyWriteCapturePostCount_sound (p : Word) : (d.replyWriteCapturePostCount p).Sound d := by
  unfold Device.replyWriteCapturePostCount
  split
  · refine .of_terms (.of_capture d _ ?_) rfl rfl
    split <;> rfl
  · trivial

theorem replyCapture_sound :
    (∀ r a b e v, (d.replyWriteCaptureConfig r a b e v).Sound d) ∧ d.replyCaptureStart.Sound d ∧ d.replyCaptureStop.Sound d
      ∧ d.replyCaptureClear.Sound d ∧ d.replyCaptureTrigger.Sound d ∧ d.replyReadCapture.Sound d ∧ d.replyRewindCapture.Sound d := by
  refine ⟨fun r a b e v => ?_, ?_, ?_, .of_same rfl rfl rfl, ?_, ?_, .of_terms (.of_capture d _ rfl) rfl rfl⟩
  · unfold Device.replyWriteCaptureConfig
    split
    · exact replyWriteCapturePostCount_sound d a
    · split
      · dsimp only
        split
        · split
          · trivial
          · split
            · trivial
            · exact .of_terms (.of_capture d _ rfl) rfl rfl
        · trivial
      · trivial
    · trivial
  · unfold Device.replyCaptureStart
    split
    · trivial
    · exact .of_same rfl rfl rfl
  · unfold Device.replyCaptureStop
    split
    · trivial
    · exact .of_same rfl rfl rfl
  · unfold Device.replyCaptureTrigger
    split
    · trivial
    · exact .of_capture (d.captureTrigger_frame 0)
  · unfold Device.replyReadCapture
    split
    · trivial
    · split
      · trivial
      · exact .of_terms (.of_capture d _ rfl) rfl rfl

theorem replyRestorePermit_sound : d.replyRestorePermit.Sound d := by
  unfold Device.replyRestorePermit
  split
  · trivial
  · split
    · exact .of_terms ⟨rfl, fun c _ => by cases c <;> rfl⟩ rfl rfl
    · trivial

theorem replyConfigureDone_sound : d.replyConfigureDone.Sound d := by
  unfold Device.replyConfigureDone
  split
  · trivial
  · split
    · trivial
    · exact .of_terms ⟨rfl, fun c _ => by cases c <;> rfl⟩ rfl rfl

theorem replyCommitProfile_sound (tag : Byte) : (d.replyCommitProfile tag).Sound d := by
  unfold Device.replyCommitProfile
  split
  · trivial
  · next h => exact .inr ⟨h, tag, rfl⟩

theorem replyEvents_sound : (∀ b, (d.replyReadEvents b).Sound d) ∧ d.replyClearEvents.Sound d :=
  ⟨fun _ => .of_terms ⟨rfl, fun c _ => by cases c <;> rfl⟩ rfl rfl, .of_terms ⟨rfl, fun c _ => by cases c <;> rfl⟩ rfl rfl⟩

/-- The reads answer, and change nothing. -/
theorem replyReads_sound :
    (∀ r, (d.replyReadSlotMap r).Sound d) ∧ (∀ r p, (d.replyReadChannel r p).Sound d) ∧ (∀ r, (d.replyReadChannelState r).Sound d)
      ∧ (∀ r, (d.replyReadSpeedConfig r).Sound d) ∧ (∀ b r f, (replyReadBank b r f).Sound d) ∧ (∀ r p, (d.replyReadZone r p).Sound d)
      ∧ (∀ r, (d.replyReadZoneState r).Sound d) ∧ (∀ r, (d.replyReadTimer r).Sound d) ∧ (∀ r, (d.replyReadTimerState r).Sound d)
      ∧ (∀ r, (d.replyReadTerm r).Sound d) ∧ (∀ r, (d.replyReadBreakConfig r).Sound d) ∧ (∀ r, (d.replyReadBreakHistory r).Sound d)
      ∧ (∀ r p, (d.replyReadActuator r p).Sound d) ∧ ∀ r, (d.replyReadCaptureConfig r).Sound d := by
  refine ⟨fun r => ?_, fun r p => ?_, fun r => ?_, fun r => ?_, fun b r f => ?_, fun r p => ?_, fun r => ?_, fun r => ?_, fun r => ?_,
    fun r => ?_, fun r => ?_, fun r => ?_, fun r p => ?_, fun r => ?_⟩
  · unfold Device.replyReadSlotMap
    split
    · trivial
    · split
      · trivial
      · split <;> trivial
  · unfold Device.replyReadChannel; split <;> trivial
  · unfold Device.replyReadChannelState; split <;> trivial
  · unfold Device.replyReadSpeedConfig; split <;> trivial
  · unfold replyReadBank; split <;> trivial
  · unfold Device.replyReadZone; split <;> trivial
  · unfold Device.replyReadZoneState; split <;> trivial
  · unfold Device.replyReadTimer; split <;> trivial
  · unfold Device.replyReadTimerState; split <;> trivial
  · unfold Device.replyReadTerm; split <;> trivial
  · unfold Device.replyReadBreakConfig; split <;> trivial
  · unfold Device.replyReadBreakHistory; split <;> trivial
  · unfold Device.replyReadActuator; split <;> trivial
  · unfold Device.replyReadCaptureConfig; split <;> trivial

/-- What each command's rule may do to the tables. -/
theorem reply_sound (tag : Byte) (c : Cmd) : (d.reply tag c).Sound d := by
  obtain ⟨r1, r2, r3, r4, r5, r6, r7, r8, r9, r10, r11, r12, r13, r14⟩ := replyReads_sound d
  obtain ⟨z1, z2, z3⟩ : _ ∧ _ ∧ _ := ⟨fun r => (replyWriteZone_sound d r).1, fun r => (replyWriteZone_sound d r).2.1, fun r => (replyWriteZone_sound d r).2.2⟩
  obtain ⟨b1, b2, b3, b4⟩ := replyBreak_sound d
  obtain ⟨a1, a2, a3⟩ := replyActuator_sound d
  obtain ⟨c1, c2, c3, c4, c5, c6, c7⟩ := replyCapture_sound d
  obtain ⟨e1, e2⟩ := replyEvents_sound d
  cases c <;> simp only [Device.reply]
  case unknown | invalid | identify | readStatus => trivial
  case writeSlotMap => exact replyWriteSlotMap_sound d _ _ _ _
  case readSlotMap => exact r1 _
  case writeChannelScale => exact replyWriteChannelScale_sound d _ _ _ _ _ _ _
  case writeChannelLimits => exact replyWriteChannelLimits_sound d _ _ _ _ _ _ _ _
  case readChannel => exact r2 _ _
  case readChannelState => exact r3 _
  case writeSpeedConfig => exact replyWriteSpeedConfig_sound d _ _ _ _ _ _
  case readSpeedConfig => exact r4 _
  case writeProfile => exact replyWriteProfile_sound d _ _
  case readProfileShadow | readProfileActive => exact r5 _ _ _
  case commitProfile => exact replyCommitProfile_sound d tag
  case writeZoneSetup => exact z1 _ _ _ _ _ _ _ _
  case writeZoneLoop => exact z2 _ _ _ _ _ _
  case writeZoneSafety => exact z3 _ _ _ _ _
  case readZone => exact r6 _ _
  case readZoneState => exact r7 _
  case setZoneMode => exact replySetZoneMode_sound d _ _
  case writeTimer => exact replyWriteTimer_sound d _ _ _ _ _ _ _
  case readTimer => exact r8 _
  case readTimerState => exact r9 _
  case writeTerm => exact replyWriteTerm_sound d _ _ _ _ _ _ _ _ _
  case readTerm => exact r10 _
  case restorePermit => exact replyRestorePermit_sound d
  case writeBreakConfig => exact b1 _ _ _ _ _
  case readBreakConfig => exact r11 _
  case readBreakHistory => exact r12 _
  case armBreak => exact b2
  case breakNow => exact b3
  case resetBreak => exact b4
  case writeActuatorSource => exact a1 _ _ _ _ _ _ _
  case writeActuatorBreak => exact a2 _ _ _ _ _
  case readActuator => exact r13 _ _
  case setOutput => exact a3 _ _
  case writeCaptureConfig => exact c1 _ _ _ _ _
  case readCaptureConfig => exact r14 _
  case captureStart => exact c2
  case captureStop => exact c3
  case captureClear => exact c4
  case captureTrigger => exact c5
  case readCapture => exact c6
  case rewindCapture => exact c7
  case configureDone => exact replyConfigureDone_sound d
  case readEventsOldest | readEventsUrgent => exact e1 _
  case clearEvents => exact e2
  case softReset => exact .inl rfl
end
end Sys2Proof.Machine

/-! The tables that every step keeps sound (O59): the Slot Map (R4), the curves (R54, R55) and the terms (R122 to R124). -/

namespace Sys2Proof.Machine

/-! ## Frames of the Ring Port and the reset -/

theorem Device.signalUnseen_frame (d : Device) (n : Nat) (a : Fin 16) :
    ∃ as q, d.signalUnseen n a = { d with actuators := as, events := q } := by
  unfold Device.signalUnseen
  dsimp only
  split
  · exact ⟨d.actuators, d.events, rfl⟩
  · exact ⟨_, _, rfl⟩

/-- R7, R156: the unseen signals touch the actuators and the event queue. -/
theorem Device.signalAllUnseen_frame (d : Device) (n : Nat) :
    ∃ as q, d.signalAllUnseen n = { d with actuators := as, events := q } := by
  unfold Device.signalAllUnseen
  generalize (List.finRange 16).filter _ = xs
  induction xs generalizing d with
  | nil => exact ⟨d.actuators, d.events, rfl⟩
  | cons a xs ih =>
    obtain ⟨as, q, h⟩ := d.signalUnseen_frame n a
    obtain ⟨as', q', h'⟩ := ih (d.signalUnseen n a)
    exact ⟨as', q', by rw [List.foldl_cons, h', h]⟩

/-- R2, R3, R7, R8: what the first word of a frame can change. -/
theorem Device.beginFrame_frame (d : Device) (w : Word) :
    ∃ f as b q m, d.beginFrame w = { d with
      port := { d.port with frame := f }, actuators := as, mailbox := { d.mailbox with written := b }, events := q, breakMet := m } := by
  unfold Device.beginFrame
  dsimp only
  split
  · exact ⟨_, d.actuators, d.mailbox.written, d.events, d.breakMet, rfl⟩
  · split
    · split
      · obtain ⟨as, q, h⟩ := Device.signalAllUnseen_frame
          (({ d.forgetBreak with mailbox := { d.mailbox with written := false } } : Device).setFrame (startedFrame (.cycle (slotCount w)) w))
          (slotCount w)
        exact ⟨_, as, false, q, 0, h⟩
      · exact ⟨_, d.actuators, false, d.events, 0, rfl⟩
    · exact ⟨_, d.actuators, false, d.events, 0, rfl⟩

/-- R22: a power-on reset leaves the power-on device, but for the frame in passage and the model's choices. -/
theorem Device.rstnRises_eq (d : Device) (straps : BitVec 5) :
    ∃ f, d.rstnRises straps = { Device.atPowerOn straps with choices := d.choices, port := { frame := f } }
      ∧ f.staging = {} ∧ (d.port.frame.passage = .idle → f.passage = .idle)
      ∧ (d.port.frame.passage ≠ .idle → f.passage = .transparent) := by
  have hp : d.port.frame.released.passage = if d.port.frame.passage = .idle then .idle else .transparent := by
    unfold FramePassage.released
    split <;> simp_all
  unfold Device.rstnRises
  dsimp only
  split
  · next h =>
    rw [h] at hp
    refine ⟨{}, rfl, rfl, fun _ => rfl, fun hn => ?_⟩
    rw [if_neg hn] at hp
    cases hp
  all_goals
    next h =>
    refine ⟨_, rfl, rfl, fun hi => ?_, fun _ => rfl⟩
    rw [h, if_pos hi] at hp
    cases hp

/-- R187: SOFT_RESET leaves the Slot Map and both banks. -/
theorem Device.softReset_tables (d : Device) :
    d.softReset.slotMap = d.slotMap ∧ d.softReset.profile.shadow = d.profile.shadow ∧ d.softReset.profile.active = d.profile.active := by
  have h : d.softReset.slotMap = (settleAtReset d.resetBlocks).slotMap ∧ d.softReset.profile = (settleAtReset d.resetBlocks).profile := ⟨rfl, rfl⟩
  rw [h.1, h.2, settleAtReset_slotMap, settleAtReset_profile]
  exact ⟨rfl, rfl, rfl⟩

/-- R187: the levels that the terms read are settled before the units take their input levels. -/
theorem Device.softReset_terms (d : Device) : SameTerms (settleAtReset d.resetBlocks) d.softReset := by
  unfold Device.softReset
  generalize settleAtReset d.resetBlocks = d1
  refine ⟨rfl, fun c _ => ?_⟩
  cases c
  case timer k => simp [Device.level, Device.takeInputLevels]
  all_goals rfl

/-! ## What handing over a command keeps -/

/-- R187 aside, what a command keeps is what a stored result, a store, an originating change and a commit keep. -/
theorem handOff_keeps {P : Device → Prop} (d : Device) (tag : Byte) (c : Cmd) (h : P d)
    (result : ∀ d' rc tag code data, P d' → P (d'.setResult rc tag code data)) (reset : P d.softReset)
    (store : ∀ d1, Stored d d1 → P d1) (run : ∀ e : Effect, Changed d e.dev → P (d.runEffect e))
    (commit : d.profileFault = none → ∀ tag, P (d.commitCopy tag)) : P (d.handOff tag c) := by
  unfold Device.handOff
  split
  · exact h
  · split
    · exact reset
    · split
      · unfold Device.execute
        split
        · exact result _ _ _ _ _ h
        · have hs := reply_sound d tag c
          generalize d.reply tag c = r at hs
          cases r with
          | answer rc data => exact result _ _ _ _ _ h
          | store d1 data => exact result _ _ _ _ _ (store d1 hs)
          | settled e data => exact result _ _ _ _ _ (run e hs)
          | waits d1 =>
            rcases hs with rfl | ⟨hf, tag, rfl⟩
            · exact h
            · exact commit hf tag
      · exact h

/-! ## Tables that only a command writes -/

/-- The Slot Map and both profile banks are the same. -/
structure SameTables (d d' : Device) : Prop where
  slotMap : d'.slotMap = d.slotMap
  shadow : d'.profile.shadow = d.profile.shadow
  active : d'.profile.active = d.profile.active

section
variable {P : Device → Prop}

theorem tables_event (stable : ∀ d d', SameTables d d' → P d → P d') : KeptByEvent P fun _ => True where
  choose d n h := stable _ _ ⟨Device.choose_slotMap d n, by rw [Device.choose_profile], by rw [Device.choose_profile]⟩ h
  act ws d j m h _ :=
    have s := settled_act_spares ws d j m
    stable _ _ ⟨s.slotMap, s.shadow, s.active⟩ h
  handsOn _ _ _ _ _ _ _ _ := trivial

theorem tables_run (stable : ∀ d d', SameTables d d' → P d → P d') {d : Device} {e : Effect} (s : SameTables d e.dev) (h : P d) :
    P (d.runEffect e) := by
  refine Device.runEffect_keeps (tables_event stable) d e (fun m => ?_) fun _ _ _ => trivial
  obtain ⟨_, _, _, _, hs⟩ := settled_frame d e m
  rw [hs]
  exact stable _ _ ⟨s.slotMap, s.shadow, s.active⟩ h

/-- R61: the copy leaves the Slot Map and SHADOW, and makes ACTIVE the SHADOW bank. -/
theorem Device.commitCopy_tables (d : Device) (tag : Byte) :
    (d.commitCopy tag).slotMap = d.slotMap ∧ (d.commitCopy tag).profile.shadow = d.profile.shadow
      ∧ (d.commitCopy tag).profile.active = d.profile.shadow := by
  unfold Device.commitCopy
  dsimp only
  split
  · exact ⟨rfl, rfl, rfl⟩
  · exact ⟨rfl, rfl, rfl⟩

/-- An invariant of the Slot Map and the banks is kept by every operation, once it is by the stores and the commit, and holds after a reset. -/
theorem tables_kept (stable : ∀ d d', SameTables d d' → P d → P d') (store : ∀ d d1, Stored d d1 → P d → P d1)
    (commit : ∀ d tag, P d → d.profileFault = none → P (d.commitCopy tag)) (rise : ∀ straps, P (Device.atPowerOn straps)) :
    KeptByOperations P where
  event := tables_event stable
  command d tag c h := handOff_keeps d tag c h (fun d' _ _ _ _ h => stable d' _ ⟨rfl, rfl, rfl⟩ h)
    (stable d _ ⟨d.softReset_tables.1, d.softReset_tables.2.1, d.softReset_tables.2.2⟩ h) (fun d1 s => store d d1 s h)
    (fun e s => tables_run stable ⟨s.slotMap, s.shadow, s.active⟩ h) fun hf tag => commit d tag h hf
  forgetBreak d h := stable d _ ⟨rfl, rfl, rfl⟩ h
  beginFrame d w h := by obtain ⟨_, _, _, _, _, hb⟩ := d.beginFrame_frame w; rw [hb]; exact stable d _ ⟨rfl, rfl, rfl⟩ h
  word d w p h := by obtain ⟨_, _, _, hp, -⟩ := d.passAt_frame w p; rw [hp]; exact stable d _ ⟨rfl, rfl, rfl⟩ h
  frame d f h := stable d _ ⟨rfl, rfl, rfl⟩ h
  close d g h := stable d _ ⟨rfl, rfl, rfl⟩ h
  delay d a h _ _ := stable d _ ⟨rfl, rfl, rfl⟩ h
  firstMark _ _ h := tables_run stable ⟨rfl, rfl, rfl⟩ h
  firstWbrk _ _ h := tables_run stable ⟨rfl, rfl, rfl⟩ h
  rise d straps h := by
    obtain ⟨f, hf, -⟩ := d.rstnRises_eq straps
    rw [hf]
    exact stable (Device.atPowerOn straps) _ ⟨rfl, rfl, rfl⟩ (rise straps)
  fall d h := stable d _ ⟨rfl, rfl, rfl⟩ h

end

/-! ## R4: the Slot Map -/

theorem SlotMap.NoDuplicates.written {m m' : SlotMap} (h : m.NoDuplicates) (w : m.Written m') : m'.NoDuplicates := by
  rcases w with he | ⟨i, e, he, hc⟩
  · unfold SlotMap.NoDuplicates at *
    rw [he]; exact h
  · have read : ∀ j : Fin 64, m'.entries[j] = if j = i then e else m.entries[j] := by
      intro j
      rw [he]
      rcases eq_or_ne j i with rfl | hj
      · simp
      · have : i.val ≠ j.val := fun hv => hj (Fin.ext hv.symm)
        simp [Vector.getElem_set_ne, this, hj]
    have clash : ∀ j x y, j ≠ i → e = some x → m.entries[j] = some y → y.slot ≠ x.slot ∧ y.role ≠ x.role := by
      intro j x y hj hx hy
      have hn := hc x hx
      simp only [SlotMap.conflicts, List.any_eq_false, Bool.and_eq_true, bne_iff_ne, ne_eq, not_and] at hn
      have := hn j (List.mem_finRange j) hj
      rw [hy] at this
      simpa using this
    intro j k hjk x y hx hy
    rw [read] at hx hy
    split at hx
    · next hj =>
      rw [if_neg (fun hk => hjk (hj.trans hk.symm))] at hy
      obtain ⟨h1, h2⟩ := clash k x y (fun hk => hjk (hj.trans hk.symm)) hx hy
      exact ⟨h1.symm, h2.symm⟩
    · next hj =>
      split at hy
      · exact clash j y x hj hy hx
      · exact h j k hjk x y hx hy


/-- R4: the Slot Map is empty at power-on. -/
theorem Device.atPowerOn_noDuplicates (straps : BitVec 5) : (Device.atPowerOn straps).slotMap.NoDuplicates :=
  fun i j _ x y hx => by simp [Device.atPowerOn] at hx

theorem noDuplicates_kept : KeptByOperations fun d => d.slotMap.NoDuplicates :=
  tables_kept (fun d d' s h => by rw [s.slotMap]; exact h) (fun d d1 s h => h.written s.slotMap)
    (fun d tag h _ => by rw [(d.commitCopy_tables tag).1]; exact h)
    Device.atPowerOn_noDuplicates

/-! ## R54, R55: the curves -/

theorem all_points_valid {n : Nat} {ws : Vector Word 9} (h : (List.range n).all (fun j => (profilePoint ws j).valid) = true) (j : Nat) (hj : j < n) :
    (profilePoint ws j).valid = true := List.all_eq_true.mp h j (List.mem_range.mpr hj)

/-- R57: what breakpoints in range are loaded over stays in range. -/
theorem foldl_set_valid (first n : Nat) (point : Nat → Breakpoint) (hp : ∀ j, j < n → (point j).valid = true) (es : Vector Breakpoint 16)
    (h : ∀ i : Fin 16, es[i].valid = true) (i : Fin 16) :
    ((List.range n).foldl (fun es j => es.setIfInBounds (first + j) (point j)) es)[i].valid = true := by
  induction n generalizing i with
  | zero => exact h i
  | succ n ih =>
    rw [List.range_succ, List.foldl_append]
    simp only [List.foldl_cons, List.foldl_nil, Fin.getElem_fin, Vector.getElem_setIfInBounds]
    split
    · exact hp n n.lt_succ_self
    · exact ih (fun j hj => hp j (Nat.lt_succ_of_lt hj)) i

theorem Curve.Loadable.write {c : Curve} (hc : c.Loadable) {h : Word} {ws : Vector Word 9} (ha : profileAccepted h ws = true) :
    (c.write (headerFirst h) (headerCount h) (headerLength h) (profilePoint ws)).Loadable := by
  simp only [profileAccepted, Bool.and_eq_true, Bool.or_eq_true, decide_eq_true_eq, beq_iff_eq] at ha
  obtain ⟨⟨-, hlen⟩, hall⟩ := ha
  refine ⟨?_, fun i => foldl_set_valid _ _ _ (fun j hj => all_points_valid hall j hj) _ hc.2 i⟩
  show (if headerLength h = 31 then c.length else headerLength h) ≤ 16
  split
  · exact hc.1
  · omega

/-- R59, R60: a curve without a fault is valid. -/
theorem Curve.isValid_of_fault {c : Curve} {b : Bool} (hc : c.length ≤ 16) (h : c.fault b = none) : c.isValid = true := by
  unfold Curve.fault at h
  unfold Curve.isValid
  split at h
  · next h0 => simp [h0]
  · split at h
    · cases h
    · have hd := Option.map_eq_none_iff.mp h
      rw [hd]
      simp only [Option.isNone_none, Bool.and_true, Bool.or_eq_true, beq_iff_eq, Bool.and_eq_true, decide_eq_true_eq]
      omega

theorem Device.profileFault_none {d : Device} (h : d.profileFault = none) (c : Fin 12) :
    d.profile.shadow[c].fault d.zones[c].needsCurve = none := by
  have := List.findSome?_eq_none_iff.mp h c (List.mem_finRange c)
  simpa using this

theorem forall_get_set {α : Type} {n : Nat} {p : α → Prop} (v : Vector α n) (i : Fin n) (x : α) (h : ∀ j : Fin n, p v[j]) (hx : p x)
    (j : Fin n) : p (v.set i x)[j] := by
  rcases eq_or_ne j i with rfl | hj
  · simpa using hx
  · have : i.val ≠ j.val := fun hv => hj (Fin.ext hv.symm)
    simpa [Vector.getElem_set_ne, this] using h j

theorem Curve.loadable_default : ({} : Curve).Loadable := ⟨Nat.zero_le _, by decide⟩

/-- A property of the one record that fills a table holds of each of its records. -/
theorem forall_get_replicate {α : Type} {n : Nat} {p : α → Prop} {x : α} (h : p x) (i : Fin n) : p (Vector.replicate n x)[i] := by
  simpa using h

/-- R54: every curve is empty at power-on. -/
theorem Device.atPowerOn_curvesValid (straps : BitVec 5) : (Device.atPowerOn straps).CurvesValid :=
  ⟨fun c => forall_get_replicate (p := Curve.Loadable) Curve.loadable_default c,
    fun c => forall_get_replicate (p := fun x : Curve => x.Loadable ∧ x.isValid = true) ⟨Curve.loadable_default, rfl⟩ c⟩

theorem curvesValid_kept : KeptByOperations Device.CurvesValid := by
  refine tables_kept (fun d d' s h => ?_) (fun d d1 s h => ?_) (fun d tag h hf => ?_) fun straps => ?_
  · unfold Device.CurvesValid
    rw [s.shadow, s.active]; exact h
  · obtain ⟨hs, ha⟩ := h
    unfold Device.CurvesValid
    rw [s.active]
    refine ⟨?_, ha⟩
    rcases s.shadow with h1 | ⟨c, w, ws, hacc, h1⟩
    · rw [h1]; exact hs
    · rw [h1]; exact forall_get_set _ c _ hs ((hs c).write hacc)
  · obtain ⟨-, h2, h3⟩ := d.commitCopy_tables tag
    unfold Device.CurvesValid
    rw [h2, h3]
    exact ⟨h.1, fun c => ⟨h.1 c, Curve.isValid_of_fault (h.1 c).1 (Device.profileFault_none hf c)⟩⟩
  · exact Device.atPowerOn_curvesValid straps

/-! ## R122, R123, R124: the terms -/

theorem termsSettled_event : KeptByEvent Device.TermsSettled fun _ => True where
  choose d n h := by
    obtain ⟨o, ho⟩ := d.choose_dev n
    rw [ho]
    exact h.congr (SameTerms.of_rest d d.permit d.events o)
  act ws d j m h _ := h.event ws j m
  handsOn _ _ _ _ _ _ _ _ := trivial

theorem termsSettled_run {d : Device} {e : Effect} (h : d.ReadyToSettle e.dev) : (d.runEffect e).TermsSettled :=
  Device.runEffect_keeps termsSettled_event d e (fun m => settled_settles h m) fun _ _ _ => trivial

/-- R61: a commit changes no condition and no term. -/
theorem Device.commitCopy_terms (d : Device) (tag : Byte) : SameTerms d (d.commitCopy tag) := by
  have level : ∀ (zs : Vector Zone 12) (p : ProfileStore) (m : Mailbox) (q : EventQueue), (∀ z : Fin 12, zs[z].mode = d.zones[z].mode) →
      SameTerms d { d with zones := zs, profile := p, mailbox := m, events := q } := fun zs p m q hz => ⟨rfl, fun c _ => by
    cases c
    case zoneFault z => simp only [Device.level, hz]
    case zoneHold z => simp only [Device.level, hz]
    all_goals rfl⟩
  have hz : ∀ z : Fin 12, (d.zones.map fun z => if z.mode = .track then { z with bumpless := true } else z)[z].mode = d.zones[z].mode := by
    intro z
    simp only [Fin.getElem_fin, Vector.getElem_map]
    split <;> rfl
  unfold Device.commitCopy
  dsimp only
  split
  · exact level _ _ _ _ hz
  · exact level _ _ _ d.events hz

/-- R122: every term reads (FIXED, 0) and is false at power-on, as the entry that this selects. -/
theorem Device.atPowerOn_termsSettled (straps : BitVec 5) : (Device.atPowerOn straps).TermsSettled := by
  intro j
  have ht : (Device.atPowerOn straps).terms[j] = {} := forall_get_replicate (p := (· = ({} : Term))) rfl j
  rw [ht]
  exact ⟨fun c hc => by simp [Term.inputs] at hc; subst hc; rfl, fun _ => by simp [Device.selected]⟩

theorem termsSettled_kept : KeptByOperations Device.TermsSettled where
  event := termsSettled_event
  command d tag c h := by
    refine handOff_keeps d tag c h (fun d' _ _ _ _ h => h.congr ⟨rfl, fun c _ => by cases c <;> rfl⟩) ?_ (fun d1 s => h.congr s.terms)
      (fun e s => termsSettled_run (s.terms h)) fun _ tag => h.congr (d.commitCopy_terms tag)
    refine Device.TermsSettled.congr (fun j => ?_) d.softReset_terms
    have hb : ∀ j : Fin 8, ∀ c ∈ d.resetBlocks.terms[j].inputs, c.below j = true := fun j => (h j).1
    have ht := settleAtReset_terms d.resetBlocks hb j
    rw [ht]
    exact ⟨hb j, fun _ => rfl⟩
  forgetBreak d h := h.congr ⟨rfl, fun c _ => by cases c <;> rfl⟩
  beginFrame d w h := by
    obtain ⟨_, _, _, _, _, hb⟩ := d.beginFrame_frame w; rw [hb]; exact h.congr ⟨rfl, fun c _ => by cases c <;> rfl⟩
  word d w p h := by obtain ⟨_, _, _, hp, -⟩ := d.passAt_frame w p; rw [hp]; exact h.congr ⟨rfl, fun c _ => by cases c <;> rfl⟩
  frame d f h := h.congr ⟨rfl, fun c _ => by cases c <;> rfl⟩
  close d g h := h.congr ⟨rfl, fun c _ => by cases c <;> rfl⟩
  delay d a h _ _ := h.congr ⟨rfl, fun c _ => by cases c <;> rfl⟩
  firstMark _ _ h := termsSettled_run (h.ready rfl)
  firstWbrk _ _ h := termsSettled_run (h.ready rfl)
  rise d straps _ := by
    obtain ⟨f, hf, -⟩ := d.rstnRises_eq straps
    rw [hf]
    exact (Device.atPowerOn_termsSettled straps).congr ⟨rfl, fun c _ => by cases c <;> rfl⟩
  fall d h := h.congr ⟨rfl, fun c _ => by cases c <;> rfl⟩

/-- Settles O59: each of the three tables is kept by every operation that a step is made of. -/
theorem stepKeepsTheTablesSound : Obligations.StepKeepsTheTablesSound := fun s t hs =>
  ⟨fun h => noDuplicates_kept.step s t h hs, fun h => curvesValid_kept.step s t h hs, fun h => termsSettled_kept.step s t h hs⟩

end Sys2Proof.Machine

/-! The values after a power-on reset and after SOFT_RESET (O3, O4, O51). -/

namespace Sys2Proof.Machine

/-! ## The state after reset -/

theorem Zone.inRange_default (c : Fin 32) : ({ measChannel := c } : Zone).InRange := by constructor <;> simp

theorem Actuator.inRange_default : ({} : Actuator).InRange := by constructor <;> simp

theorem Timer.sound_default : ({} : Timer).Sound := by constructor <;> simp

theorem Device.atPowerOn_zone (straps : BitVec 5) (z : Fin 12) :
    (Device.atPowerOn straps).zones[z] = { measChannel := z.castLE (by decide) } := by simp [Device.atPowerOn]

theorem Device.atPowerOn_commitWaits (straps : BitVec 5) : (Device.atPowerOn straps).CommitWaits := by
  have hz : ∀ z : Fin 12, (Device.atPowerOn straps).zones[z].bumpless = false := fun z => by rw [Device.atPowerOn_zone]
  exact ⟨fun z h => absurd h (by rw [hz]; simp), .inl rfl, rfl, hz⟩

theorem Device.atPowerOn_phase (straps : BitVec 5) (a : Fin 16) : (Device.atPowerOn straps).actuators[a].phase = .none :=
  forall_get_replicate (p := fun x : Actuator => x.phase = .none) rfl a

theorem Device.atPowerOn_monitorSound (straps : BitVec 5) : (Device.atPowerOn straps).MonitorSound :=
  ⟨by show (1 : Nat) ≤ 5000 ∧ (5000 : Nat) ≤ 65535; decide, fun h => (by cases h), fun _ => ⟨rfl, rfl⟩, fun _ => Device.atPowerOn_phase straps⟩

/-- Settles O3, invariant by invariant, from the default record of each table. -/
theorem resetMeetsEveryInvariant : Obligations.ResetMeetsEveryInvariant := by
  have hz : ∀ z : Fin 12, (Device.atPowerOn Config.resetStraps).zones[z].mode = .off := fun z => by rw [Device.atPowerOn_zone]
  exact ⟨fun h => (by cases h), ⟨Nat.zero_le _, Nat.zero_le _, Nat.zero_le _, Nat.zero_le _, Nat.zero_le _⟩, Device.atPowerOn_commitWaits _,
    ⟨fun z => by
      show (Device.atPowerOn Config.resetStraps).zones[z].InRange
      rw [Device.atPowerOn_zone]; exact Zone.inRange_default _, fun a => forall_get_replicate Actuator.inRange_default a⟩,
    Device.atPowerOn_curvesValid _, Device.atPowerOn_noDuplicates _, Device.atPowerOn_termsSettled _,
    fun k => forall_get_replicate Timer.sound_default k, Device.atPowerOn_monitorSound _,
    fun _ => ⟨rfl, rfl, hz, Device.atPowerOn_phase _, .inl rfl⟩, rfl⟩

/-- Settles O4: the device after the reset is the power-on device, but for the frame in passage and the model's choices. -/
theorem powerOnResetValues : Obligations.PowerOnResetValues := by
  intro straps s
  obtain ⟨f, hf, hstage, hidle, hpass⟩ := s.dev.rstnRises_eq straps
  refine ⟨{ s with dev := s.dev.rstnRises straps }, rfl, ?_⟩
  dsimp only
  rw [hf]
  refine ⟨rfl, rfl, rfl, rfl, rfl, rfl, rfl, hstage, hidle, hpass, fun i => ?_, rfl, rfl, fun c => ?_, rfl, fun c => ?_, rfl, fun z => ?_, fun k => ?_,
    fun j => ?_, rfl, rfl, fun a => ?_, rfl, rfl, rfl⟩
  · exact forall_get_replicate (p := (· = none)) rfl i
  · exact forall_get_replicate (p := (· = ({} : Channel))) rfl c
  · have h := forall_get_replicate (p := fun x : Curve => x.length = 0 ∧ ∀ i : Fin 16, x.entries[i] = {}) (x := {}) ⟨rfl, fun i =>
      forall_get_replicate (p := (· = ({} : Breakpoint))) rfl i⟩ c
    exact ⟨h.1, h.1, fun i => ⟨h.2 i, h.2 i⟩⟩
  · exact Device.atPowerOn_zone straps z
  · exact forall_get_replicate (p := (· = ({} : Timer))) rfl k
  · exact forall_get_replicate (p := (· = ({} : Term))) rfl j
  · exact forall_get_replicate (p := (· = ({} : Actuator))) rfl a

/-! ## The state after SOFT_RESET -/

/-- A table written record by record. -/
theorem get_map {α : Type} {n : Nat} (v : Vector α n) (f : α → α) (i : Fin n) : (v.map f)[i] = f v[i] := by simp

/-- R105, R187: what SOFT_RESET leaves of a unit. -/
theorem Device.softReset_timer (d : Device) (k : Fin 6) :
    d.softReset.timers[k] = { d.timers[k].softReset with inputLevel := d.softReset.level d.timers[k].input } := by
  have h : d.softReset.timers[k] = { (settleAtReset d.resetBlocks).timers[k] with
      inputLevel := (settleAtReset d.resetBlocks).level (settleAtReset d.resetBlocks).timers[k].input } :=
    get_map (settleAtReset d.resetBlocks).timers _ k
  rw [h, settleAtReset_timers]
  have hk : d.resetBlocks.timers[k] = d.timers[k].softReset := get_map _ _ k
  have hi : d.timers[k].softReset.input = d.timers[k].input := by
    unfold Timer.softReset Timer.loadLatch
    dsimp only
    split <;> rfl
  rw [hk, hi]
  have hl := d.softReset_terms
  have : (settleAtReset d.resetBlocks).level d.timers[k].input = d.softReset.level d.timers[k].input := by
    cases ht : d.timers[k].input
    case term j =>
      show (settleAtReset d.resetBlocks).terms[j].value = d.softReset.terms[j].value
      rw [hl.terms]
    all_goals exact (hl.level _ rfl).symm
  rw [this]

/-- R187: what SOFT_RESET leaves of the blocks whose record it rewrites as a whole. -/
theorem Device.softReset_blocks (d : Device) :
    d.softReset.port = { d.port with
        cycleCount := 0, permitRequest := false, triggerRequest := false, frame := { d.port.frame with staging := {} } }
      ∧ d.softReset.lines = d.lines ∧ d.softReset.channels = d.channels ∧ d.softReset.speed = d.speed.lose
      ∧ d.softReset.profile = { d.profile with commit := none } ∧ d.softReset.zones = d.zones.map Zone.softReset
      ∧ d.softReset.permit = .dropped
      ∧ d.softReset.monitor = { d.monitor with state := .disarmed, countdown := 0, suspectTicks := 0 }
      ∧ d.softReset.actuators = d.actuators.map Actuator.softReset ∧ d.softReset.capture = d.capture.softReset
      ∧ d.softReset.mailbox = { nodeAddress := d.mailbox.nodeAddress } := by
  unfold Device.softReset Device.takeInputLevels
  simp only [Device.raise_port, Device.raise_lines, Device.raise_channels, Device.raise_speed, Device.raise_profile, Device.raise_zones,
    Device.raise_permit, Device.raise_monitor, Device.raise_actuators, Device.raise_capture, Device.raise_mailbox,
    settleAtReset_port, settleAtReset_lines, settleAtReset_channels, settleAtReset_speed, settleAtReset_profile, settleAtReset_zones,
    settleAtReset_permit, settleAtReset_monitor, settleAtReset_actuators, settleAtReset_capture, settleAtReset_mailbox]
  exact ⟨rfl, rfl, rfl, rfl, rfl, rfl, rfl, rfl, rfl, rfl, rfl⟩

/-- R187: RESET_DONE stands alone in the queue, stamped with the cleared cycle count. -/
theorem Device.softReset_events (d : Device) :
    d.softReset.events = { records := [{ kind := .resetDone, source := 0, stamp := 0, value := 0 }], overrun := false } := by
  have h : d.softReset.port.cycleCount = 0 := by rw [d.softReset_blocks.1]
  show EventQueue.offer {} { kind := .resetDone, source := 0, stamp := d.softReset.port.cycleCount, value := 0 } = _
  rw [h]
  rfl

/-- R122, R187: every term has the entry that its inputs select after SOFT_RESET. -/
theorem Device.softReset_term (d : Device) (hb : ∀ i : Fin 8, ∀ c ∈ d.terms[i].inputs, c.below i = true) (j : Fin 8) :
    d.softReset.terms[j] = { d.terms[j] with value := d.softReset.selected d.terms[j], deferred := false } := by
  have hs := d.softReset_terms
  rw [hs.terms, settleAtReset_terms d.resetBlocks hb j]
  show ({ d.terms[j] with value := (settleAtReset d.resetBlocks).selected d.terms[j], deferred := false } : Term) = _
  rw [Device.selected_congr (d := settleAtReset d.resetBlocks) (d' := d.softReset) fun c hc =>
    Device.level_below (fun i _ => by rw [hs.terms]) hs.level (hb j c hc)]

/-- Settles O51, from what SOFT_RESET leaves of each block. -/
theorem softResetLeavesTheResetValues : Obligations.SoftResetLeavesTheResetValues := by
  intro tag s hr hn
  have ht : s.dev.takesCommands = true := by
    simp only [Device.takesCommands, hr, Bool.true_and, bne_iff_ne]; exact hn
  obtain ⟨port, lines, channels, speed, profile, zones, permit, monitor, actuators, capture, mailbox⟩ := s.dev.softReset_blocks
  refine ⟨{ s with dev := s.dev.softReset }, ?_, lines, s.dev.softReset_tables.1, channels, port, speed, profile, fun z => ?_, fun k => ?_,
    s.dev.softReset_term, permit, monitor, fun a => ?_, ?_, mailbox, s.dev.softReset_events⟩
  · show Host.Outcome.next { s with dev := s.dev.handOff tag .softReset } = _
    rw [Device.handOff_softReset ht]
  · dsimp only
    rw [zones]
    exact get_map s.dev.zones Zone.softReset z
  · dsimp only
    rw [s.dev.softReset_timer k]
    unfold Timer.softReset Timer.loadLatch
    split
    · rfl
    · next h => simpa using h
  · dsimp only
    rw [actuators]
    exact get_map s.dev.actuators Actuator.softReset a
  · dsimp only
    rw [capture]
    unfold Capture.softReset Capture.loadLatch
    split
    · rfl
    · next h => simp [h]

end Sys2Proof.Machine

/-! RSTN and the words that are only forwarded (O5). -/

namespace Sys2Proof.Machine

theorem Device.setFrame_self (d : Device) : d.setFrame d.port.frame = d := rfl

/-- Words that have been forwarded as received, outside the CRC. -/
def FramePassage.forwards (f : FramePassage) (ws : List Word) : FramePassage :=
  { f with position := f.position + ws.length, ringOut := f.ringOut ++ ws }

/-- R2, R3: a frame that is not served, or that passes while RSTN is low, is forwarded as received. -/
def Device.OnlyForwards (d : Device) : Prop :=
  (d.lines.rstn = false ∧ d.port.frame.passage ≠ .idle) ∨ d.port.frame.passage = .malformed ∨ d.port.frame.passage = .transparent

theorem Device.OnlyForwards.place {d : Device} (h : d.OnlyForwards) : d.place = .unserved := by
  unfold Device.place
  rcases h with ⟨hr, hp⟩ | hp | hp
  · cases hf : d.port.frame.passage with
    | idle => exact absurd hf hp
    | cycle n => simp [hr]
    | malformed => rfl
    | transparent => rfl
  · rw [hp]
  · rw [hp]

theorem Device.OnlyForwards.passWord {d : Device} (h : d.OnlyForwards) (w : Word) : d.passWord w = d.forwardWord w := by
  unfold Device.passWord
  rw [h.place]
  rfl

theorem Device.OnlyForwards.forward {d : Device} (h : d.OnlyForwards) (w : Word) : (d.forwardWord w).OnlyForwards := h

/-- The words of such a frame leave as received. -/
theorem Device.OnlyForwards.passWords {d : Device} (h : d.OnlyForwards) (ws : List Word) :
    d.passWords ws = d.setFrame (d.port.frame.forwards ws) := by
  induction ws generalizing d with
  | nil => simp [Device.passWords, FramePassage.forwards, Device.setFrame]
  | cons w ws ih =>
    show (d.passWord w).passWords ws = _
    rw [h.passWord, ih (h.forward w)]
    show d.setFrame _ = d.setFrame _
    congr 1
    simp only [FramePassage.forwards, Device.forwardWord, Device.setFrame_port, FramePassage.forward, List.append_assoc, List.singleton_append,
      List.length_cons, Nat.add_assoc, Nat.add_comm 1]

theorem Device.OnlyForwards.after {d : Device} (h : d.OnlyForwards) (ws : List Word) : (d.passWords ws).OnlyForwards := by
  rw [h.passWords]; exact h

/-- Between frames a word changes nothing. -/
theorem Device.passWords_idle {d : Device} (h : d.port.frame.passage = .idle) (ws : List Word) : d.passWords ws = d := by
  have hp : d.place = .outside := by simp [Device.place, h]
  induction ws with
  | nil => rfl
  | cons w ws ih =>
    show (d.passAt w d.place).passWords ws = d
    rw [hp]
    exact ih

/-- With RSTN low, passing words changes the frame record alone. -/
theorem Device.passWords_low {d : Device} (h : d.lines.rstn = false) (ws : List Word) : ∃ f, d.passWords ws = d.setFrame f := by
  by_cases hp : d.port.frame.passage = .idle
  · exact ⟨d.port.frame, Device.passWords_idle hp ws⟩
  · exact ⟨_, Device.OnlyForwards.passWords (.inl ⟨h, hp⟩) ws⟩

/-! ## What the row's name adds to the place of its word: nothing (log 7) -/

theorem Device.passWords_append (d : Device) (xs ys : List Word) : d.passWords (xs ++ ys) = (d.passWords xs).passWords ys :=
  List.foldl_append

theorem Device.passWords_at {d : Device} {p : Place} (h : d.place = p) (w : Word) : d.passWords [w] = d.passAt w p := by
  subst h; rfl

/-- The rows that name one word. -/
def passedWord : Instr → Option (List Word × Word)
  | .breakWordPassing sk w | .stageInputSlot sk w | .stageControlSlot sk w | .outputSlotPassing sk w | .statusSlotPassing sk w
  | .resultAreaPassing sk w => some (sk, w)
  | _ => none

/-- R8 to R12: a row that names one word passes the skipped words and then that word at the place where it stands. -/
theorem exec_passesWord {i : Instr} {sk : List Word} {w : Word} (h : passedWord i = some (sk, w)) (s : State) :
    exec i s = .next { s with dev := s.dev.passWords (sk ++ [w]) } := by
  rw [Device.passWords_append]
  have key : ∀ {sk' w'}, some (sk', w') = some (sk, w) → sk' = sk ∧ w' = w := fun h => by simpa using h
  cases i
  case breakWordPassing sk' w' =>
    obtain ⟨rfl, rfl⟩ := key h
    simp only [exec, execBreakWordPassing, State.become]
    split
    · next hp => rw [Device.passWords_at hp]; rfl
    · rfl
  case stageInputSlot sk' w' =>
    obtain ⟨rfl, rfl⟩ := key h
    simp only [exec, execStageInputSlot, State.become]
    split
    · next c hp => rw [Device.passWords_at hp]; rfl
    · rfl
  case stageControlSlot sk' w' =>
    obtain ⟨rfl, rfl⟩ := key h
    simp only [exec, execStageControlSlot, State.become]
    split
    · next hp => rw [Device.passWords_at hp]; rfl
    · rfl
  case outputSlotPassing sk' w' =>
    obtain ⟨rfl, rfl⟩ := key h
    simp only [exec, execOutputSlotPassing, State.become]
    split
    · next c hp => rw [Device.passWords_at hp]; rfl
    · rfl
  case statusSlotPassing sk' w' =>
    obtain ⟨rfl, rfl⟩ := key h
    simp only [exec, execStatusSlotPassing, State.become]
    split
    · next hp => rw [Device.passWords_at hp]; rfl
    · rfl
  case resultAreaPassing sk' w' =>
    obtain ⟨rfl, rfl⟩ := key h
    simp only [exec, execResultAreaPassing, State.become]
    split
    · next hp => rw [Device.passWords_at hp]; rfl
    · rfl
  all_goals cases h

theorem exec_stageCommandArea (sk : List Word) (area : Vector Word 13) (s : State) :
    exec (.stageCommandArea sk area) s = .next { s with dev := s.dev.passWords (sk ++ area.toList) } := by
  rw [Device.passWords_append]
  rfl

theorem Device.passWords_cons (d : Device) (w : Word) (ws : List Word) : d.passWords (w :: ws) = (d.passWords [w]).passWords ws := rfl

/-- R13: the two CRC words pass where they stand. -/
theorem exec_crcPassing (sk : List Word) (high low : Word) (s : State) :
    exec (.crcPassing sk high low) s = .next { s with dev := s.dev.passWords (sk ++ [high, low]) } := by
  rw [Device.passWords_append, Device.passWords_cons]
  simp only [exec, execCrcPassing, State.become]
  split
  · next hp => rw [Device.passWords_at hp]; rfl
  · rfl

theorem exec_cycleCompletion (sk : List Word) (loss : Bool) (s : State) :
    exec (.cycleCompletion sk loss) s = .next { s with dev := (s.dev.passWords sk).endFrame loss } := rfl

theorem exec_cycleFrameW0 (w : Word) (s : State) : exec (.cycleFrameW0 w) s = .next { s with dev := s.dev.beginFrame w } := rfl

/-- R2: a frame of another kind, or one that begins while RSTN is low, is only forwarded. -/
theorem Device.beginFrame_transparent {d : Device} {w : Word} (h : d.lines.rstn = false ∨ frameKind w ≠ cycleKind) :
    d.beginFrame w = d.setFrame (startedFrame .transparent w) := by
  unfold Device.beginFrame
  rw [if_pos (by rcases h with h | h <;> simp [h])]

/-- A whole frame of another kind leaves as received. -/
theorem exec_nonCycleFrame {w : Word} (rest : List Word) {s : State} (h : s.dev.lines.rstn = false ∨ frameKind w ≠ cycleKind) :
    exec (.nonCycleFrame w rest) s = .next { s with dev := s.dev.setFrame { (startedFrame .transparent w).forwards rest with passage := .idle } } := by
  have ht : (s.dev.setFrame (startedFrame .transparent w)).OnlyForwards := .inr (.inr rfl)
  simp only [exec, execNonCycleFrame, State.become]
  rw [Device.beginFrame_transparent h, ht.passWords]
  rfl

/-- The end of a frame that is only forwarded is no completion. -/
theorem Device.endFrame_low {d : Device} (h : d.lines.rstn = false) (loss : Bool) :
    d.endFrame loss = if d.port.frame.passage = .idle then d else d.setFrame { d.port.frame with passage := .idle } := by
  unfold Device.endFrame
  cases hp : d.port.frame.passage <;> simp [h]

/-! ## RSTN -/

theorem Device.occur_low {d : Device} (h : d.lines.rstn = false) (b : Bool) (a : Device) : d.occur b a = d := by simp [Device.occur, h]

theorem Device.handOff_low {d : Device} (h : d.lines.rstn = false) (tag : Byte) (c : Cmd) : d.handOff tag c = d :=
  Device.handOff_unserved (by simp [Device.takesCommands, h]) tag c

/-- R2, R22: while RSTN is low, every command but a power-on reset changes the frame record alone. -/
theorem exec_low {s : State} (h : s.dev.lines.rstn = false) (i : Instr) (hi : ∀ straps, i ≠ .powerOnReset straps) :
    ∃ f : FramePassage, exec i s = .next { s with dev := s.dev.setFrame f } := by
  have word : ∀ {i sk w}, passedWord i = some (sk, w) → ∃ f, exec i s = .next { s with dev := s.dev.setFrame f } := fun hw => by
    obtain ⟨f, hf⟩ := Device.passWords_low h _
    exact ⟨f, by rw [exec_passesWord hw, hf]⟩
  have stays : ∀ {d : Device}, d = s.dev → ∃ f, Host.Outcome.next { s with dev := d } = (.next { s with dev := s.dev.setFrame f } : Host.Outcome State Fault Refusal) :=
    fun hd => ⟨s.dev.port.frame, by rw [hd, Device.setFrame_self]⟩
  cases i
  case powerOnReset straps => exact absurd rfl (hi straps)
  case rstnFall =>
    refine ⟨s.dev.port.frame.released, ?_⟩
    have hl : { s.dev.lines with rstn := false } = s.dev.lines := by rw [← h]
    simp only [exec, execRstnFall, State.become, Device.rstnFalls, hl]
  case nonCycleFrame w rest => exact ⟨_, exec_nonCycleFrame rest (.inl h)⟩
  case cycleFrameW0 w => exact ⟨_, by rw [exec_cycleFrameW0, Device.beginFrame_transparent (.inl h)]⟩
  case stageCommandArea sk area =>
    obtain ⟨f, hf⟩ := Device.passWords_low h (sk ++ area.toList)
    exact ⟨f, by rw [exec_stageCommandArea, hf]⟩
  case crcPassing sk a b =>
    obtain ⟨f, hf⟩ := Device.passWords_low h (sk ++ [a, b])
    exact ⟨f, by rw [exec_crcPassing, hf]⟩
  case cycleCompletion sk loss =>
    obtain ⟨f, hf⟩ := Device.passWords_low h sk
    have hf' : (s.dev.setFrame f).lines.rstn = false := h
    rw [exec_cycleCompletion, hf, Device.endFrame_low hf']
    split
    · exact ⟨f, rfl⟩
    · exact ⟨_, rfl⟩
  case breakWordPassing | stageInputSlot | stageControlSlot | outputSlotPassing | statusSlotPassing | resultAreaPassing => exact word rfl
  case captureWindowExpiry | tick | channelAgeStale | channelAgeFailed | cycleTimeoutExpiry | purgeExpiry | confirmationExpiry | timerExpiry
      | markLevelChange | wbrkLevelChange | deferredTermSettle | actuatorDelayExpiry | markFirstAcceptance | wbrkFirstAcceptance =>
    exact stays (Device.occur_low h _ _)
  all_goals exact stays (Device.handOff_low h _ _)

/-- R2, R22: what the fall of RSTN leaves of the frame in passage. -/
theorem FramePassage.released_cases (f : FramePassage) :
    (f.passage = .idle → f.released = f)
      ∧ (f.passage ≠ .idle → f.released.passage = .transparent ∧ f.released.ringOut = f.ringOut ++ f.crcHigh.toList) := by
  unfold FramePassage.released
  cases h : f.passage <;> simp

/-- Settles O5: with RSTN low, and for a frame of another kind, only the frame record is touched. -/
theorem rstnLowAndOtherFramesOnlyForward : Obligations.RstnLowAndOtherFramesOnlyForward := by
  refine ⟨fun s => ?_, fun i s h hi => exec_low h i hi, fun sk w high low area loss s h => ⟨fun hp => ?_, ?_⟩, fun w0 rest s hk => ?_⟩
  · obtain ⟨hidle, hpass⟩ := s.dev.port.frame.released_cases
    exact ⟨{ s with dev := s.dev.rstnFalls }, rfl, rfl, rfl, hidle, hpass⟩
  · have hf : s.dev.OnlyForwards := .inl ⟨h, hp⟩
    have word : ∀ {i sk w}, passedWord i = some (sk, w) →
        exec i s = .next { s with dev := s.dev.setFrame (s.dev.port.frame.forwards (sk ++ [w])) } :=
      fun hw => by rw [exec_passesWord hw, hf.passWords]
    refine ⟨word rfl, word rfl, word rfl, word rfl, word rfl, word rfl, ?_, ?_, ?_⟩
    · exact (exec_stageCommandArea sk area s).trans (by rw [hf.passWords]; rfl)
    · exact (exec_crcPassing sk high low s).trans (by rw [hf.passWords]; rfl)
    · have hl : (s.dev.setFrame (s.dev.port.frame.forwards sk)).lines.rstn = false := h
      rw [exec_cycleCompletion, hf.passWords, Device.endFrame_low hl, if_neg (by exact hp)]
      rfl
  · exact ⟨startedFrame .transparent w, by rw [exec_cycleFrameW0, Device.beginFrame_transparent (.inl h)], rfl, rfl, rfl, rfl⟩
  · exact ⟨_, exec_nonCycleFrame rest (.inr hk), rfl, rfl, rfl⟩

end Sys2Proof.Machine

/-! The start of a frame (O6). -/

namespace Sys2Proof.Machine

/-- R156: the record of an actuator that a frame with slot count `n` leaves unseen. -/
def Device.unseenRecord (d : Device) (n : Nat) (a : Fin 16) : EventRecord :=
  { kind := .slotUnseen, source := BitVec.ofNat 8 a.val, stamp := d.port.cycleCount, value := BitVec.ofNat 16 n }

theorem Device.signalUnseen_of_unseen {d : Device} {a : Fin 16} (h : d.actuators[a].unseen = true) (n : Nat) : d.signalUnseen n a = d :=
  if_pos h

theorem Device.signalUnseen_of_seen {d : Device} {a : Fin 16} (h : d.actuators[a].unseen = false) (n : Nat) :
    d.signalUnseen n a = (d.setActuator a { d.actuators[a] with unseen := true }).raise .slotUnseen a.val (natWord n) :=
  if_neg (by rw [h]; simp)

/-- R156: what signalling each of the actuators `xs` leaves. -/
theorem Device.signalUnseen_foldl (n : Nat) (xs : List (Fin 16)) (hxs : xs.Nodup) (d : Device) :
    ∃ as, xs.foldl (fun d a => d.signalUnseen n a) d = { d with
        actuators := as
        events := (xs.filter fun a => !d.actuators[a].unseen).foldl (fun q a => q.offer (d.unseenRecord n a)) d.events }
      ∧ ∀ a : Fin 16, as[a] = if a ∈ xs then { d.actuators[a] with unseen := true } else d.actuators[a] := by
  induction xs generalizing d with
  | nil => exact ⟨d.actuators, rfl, fun a => by simp⟩
  | cons x xs ih =>
    obtain ⟨hx, hxs⟩ := List.nodup_cons.mp hxs
    obtain ⟨as, he, has⟩ := ih hxs (d.signalUnseen n x)
    cases hu : d.actuators[x].unseen with
    | true =>
      rw [Device.signalUnseen_of_unseen hu] at he has
      refine ⟨as, ?_, fun a => ?_⟩
      · rw [List.foldl_cons, Device.signalUnseen_of_unseen hu, he, List.filter_cons_of_neg (by rw [hu]; simp)]
      · rw [has]
        by_cases ha : a = x
        · subst ha
          rw [if_neg hx, if_pos List.mem_cons_self, ← hu]
        · simp only [List.mem_cons, ha, false_or]
    | false =>
      have hs := Device.signalUnseen_of_seen hu n
      have hr : ∀ a : Fin 16, (d.signalUnseen n x).actuators[a] = if a = x then { d.actuators[x] with unseen := true } else d.actuators[a] :=
        fun a => by rw [hs]; exact Device.setActuator_get d x a _
      have hf : (xs.filter fun a => !(d.signalUnseen n x).actuators[a].unseen) = xs.filter fun a => !d.actuators[a].unseen :=
        List.filter_congr fun a ha => by rw [hr, if_neg (by rintro rfl; exact hx ha)]
      refine ⟨as, ?_, fun a => ?_⟩
      · rw [List.foldl_cons, he, hf, List.filter_cons_of_pos (by rw [hu]; rfl), hs]
        rfl
      · rw [has, hr]
        by_cases ha : a = x
        · subst ha
          rw [if_neg hx, if_pos rfl, if_pos List.mem_cons_self]
        · simp only [List.mem_cons, ha, false_or, if_false]

/-- R7: an OUTPUT entry for the actuator lies at slot `n` or above. -/
theorem SlotMap.outputBeyond_iff (m : SlotMap) (n : Nat) (a : Fin 16) :
    m.outputBeyond n a = true ↔ ∃ (i : Fin 64) (x : SlotEntry), m.entries[i] = some x ∧ x.role = .output a ∧ n ≤ x.slot.val := by
  simp only [SlotMap.outputBeyond, List.any_eq_true, Vector.mem_toList_iff, Option.any_eq_true, Bool.and_eq_true, beq_iff_eq, decide_eq_true_eq]
  constructor
  · rintro ⟨e, he, x, rfl, hx⟩
    obtain ⟨i, hi, h⟩ := Vector.mem_iff_getElem.mp he
    exact ⟨⟨i, hi⟩, x, h, hx⟩
  · rintro ⟨i, x, h, hx⟩
    exact ⟨_, Vector.getElem_mem i.isLt, x, h, hx⟩

/-- R3, R7, R8: W0 of a CYCLE frame while RSTN is high. -/
theorem Device.beginFrame_cycle {d : Device} {w : Word} (hr : d.lines.rstn = true) (hk : frameKind w = cycleKind) :
    d.beginFrame w =
      if slotCountServed (slotCount w) then
        (if d.mailbox.ready then Device.signalAllUnseen ({ d.forgetBreak with mailbox := { d.mailbox with written := false } }.setFrame
            (startedFrame (.cycle (slotCount w)) w)) (slotCount w)
          else { d.forgetBreak with mailbox := { d.mailbox with written := false } }.setFrame (startedFrame (.cycle (slotCount w)) w))
      else { d.forgetBreak with mailbox := { d.mailbox with written := false } }.setFrame (startedFrame .malformed w) := by
  unfold Device.beginFrame
  rw [if_neg (by simp [hr, hk])]
  rfl

/-- R3: the slot counts that are served. -/
theorem slotCountServed_iff (n : Nat) : slotCountServed n = true ↔ 16 ≤ n ∧ n ≤ 128 := by simp [slotCountServed]

/-- R7, R156: the actuators that a frame with slot count `n` newly leaves unseen. -/
def Device.newlyUnseen (d : Device) (n : Nat) : List (Fin 16) :=
  ((List.finRange 16).filter fun a => d.slotMap.outputBeyond n a).filter fun a => !d.actuators[a].unseen

theorem Device.newlyUnseen_ascending (d : Device) (n : Nat) : (d.newlyUnseen n).Pairwise (· < ·) :=
  ((List.pairwise_lt_finRange 16).filter _).filter _

theorem Device.mem_newlyUnseen {d : Device} {n : Nat} {a : Fin 16} :
    a ∈ d.newlyUnseen n ↔ d.actuators[a].unseen = false ∧ d.slotMap.outputBeyond n a = true := by
  simp [Device.newlyUnseen, and_comm]

/-- R7, R156: what the first word of a served frame leaves. -/
theorem Device.beginFrame_served {d : Device} {w : Word} (hr : d.lines.rstn = true) (hk : frameKind w = cycleKind)
    (hn : 16 ≤ slotCount w ∧ slotCount w ≤ 128) :
    ∃ (as : Vector Actuator 16) (newly : List (Fin 16)), d.beginFrame w = { d with
        port := { d.port with frame := startedFrame (.cycle (slotCount w)) w }, mailbox := { d.mailbox with written := false }
        actuators := as, breakMet := 0
        events := newly.foldl (fun q a => q.offer (d.unseenRecord (slotCount w) a)) d.events }
      ∧ newly.Pairwise (· < ·)
      ∧ (∀ a : Fin 16, a ∈ newly ↔ d.mailbox.ready = true ∧ d.actuators[a].unseen = false ∧ d.slotMap.outputBeyond (slotCount w) a = true)
      ∧ ∀ a : Fin 16, as[a] =
          if d.mailbox.ready = true ∧ d.slotMap.outputBeyond (slotCount w) a = true then { d.actuators[a] with unseen := true }
          else d.actuators[a] := by
  rw [Device.beginFrame_cycle hr hk, if_pos ((slotCountServed_iff _).mpr hn)]
  cases hready : d.mailbox.ready with
  | false => exact ⟨d.actuators, [], rfl, List.Pairwise.nil, fun a => by simp, fun a => by simp⟩
  | true =>
    obtain ⟨as, he, has⟩ := Device.signalUnseen_foldl (slotCount w) ((List.finRange 16).filter fun a => d.slotMap.outputBeyond (slotCount w) a)
      ((List.nodup_finRange 16).filter _)
      ({ d.forgetBreak with mailbox := { d.mailbox with written := false } }.setFrame (startedFrame (.cycle (slotCount w)) w))
    refine ⟨as, d.newlyUnseen (slotCount w), ?_, d.newlyUnseen_ascending _, fun a => ?_, fun a => ?_⟩
    · rw [if_pos rfl]
      exact he
    · rw [Device.mem_newlyUnseen]
      simp only [true_and]
    · rw [has]
      simp only [List.mem_filter, List.mem_finRange, true_and]
      rfl

/-- Settles O6: the first word of a frame, by its slot count. -/
theorem firstWordStartsTheFrame : Obligations.FirstWordStartsTheFrame := by
  intro w s hr hk
  refine ⟨{ s with dev := s.dev.beginFrame w }, exec_cycleFrameW0 w s, ?_⟩
  simp only [← SlotMap.outputBeyond_iff]
  by_cases hn : 16 ≤ slotCount w ∧ slotCount w ≤ 128
  · obtain ⟨as, newly, he, hsorted, hmem, has⟩ := Device.beginFrame_served hr hk hn
    rw [he]
    refine ⟨rfl, rfl, rfl, rfl, fun _ => ⟨rfl, ⟨newly, hsorted, hmem, rfl⟩, fun a => ⟨fun h => ?_, fun h => ?_⟩⟩, fun h => by omega⟩
    · exact (has a).trans (if_pos h)
    · exact (has a).trans (if_neg h)
  · rw [Device.beginFrame_cycle hr hk, if_neg (by rwa [slotCountServed_iff])]
    exact ⟨rfl, rfl, rfl, rfl, fun h => absurd h hn, fun _ => ⟨rfl, rfl, rfl⟩⟩

end Sys2Proof.Machine

/-! The words of a frame (O7, O8, O9, O10, O11). -/

namespace Sys2Proof.Machine

/-! ## Places -/

/-- R4: where no slot appears twice, an entry decides the role of its slot. -/
theorem SlotMap.roleOf_of_entry {m : SlotMap} (h : m.NoDuplicates) {i : Fin 64} {x : SlotEntry} (hi : m.entries[i] = some x) :
    m.roleOf x.slot.val = some x.role := by
  have holds : ∃ e ∈ m.entries.toList, (e.filter fun y => y.slot.val == x.slot.val).isSome :=
    ⟨some x, by rw [← hi]; exact Vector.mem_toList_iff.mpr (Vector.getElem_mem i.isLt), by simp [Option.filter]⟩
  obtain ⟨y, hy⟩ := Option.isSome_iff_exists.mp (List.findSome?_isSome_iff.mpr holds)
  obtain ⟨e, he, hey⟩ := List.exists_of_findSome?_eq_some hy
  obtain ⟨rfl, hslot⟩ := Option.filter_eq_some_iff.mp hey
  obtain ⟨j, hj, hjy⟩ := Vector.mem_iff_getElem.mp (Vector.mem_toList_iff.mp he)
  have hxy : i = ⟨j, hj⟩ := by
    by_contra hne
    exact (h i ⟨j, hj⟩ hne x y hi hjy).1 (Fin.ext (beq_iff_eq.mp hslot).symm)
  subst hxy
  have hyx : y = x := Option.some.inj (hjy.symm.trans hi)
  unfold SlotMap.roleOf
  rw [hy, hyx]
  rfl

/-- R4: a slot that no entry holds has no role. -/
theorem SlotMap.roleOf_of_free {m : SlotMap} {slot : Nat} (h : ∀ (i : Fin 64) (x : SlotEntry), m.entries[i] = some x → x.slot.val ≠ slot) :
    m.roleOf slot = none := by
  have hn : (m.entries.toList.findSome? fun e => e.filter fun x => x.slot.val == slot) = none := by
    rw [List.findSome?_eq_none_iff]
    intro e he
    obtain ⟨i, hi, hie⟩ := Vector.mem_iff_getElem.mp (Vector.mem_toList_iff.mp he)
    cases e with
    | none => rfl
    | some x => simpa [Option.filter] using h ⟨i, hi⟩ x hie
  unfold SlotMap.roleOf
  rw [hn]
  rfl

/-- R1: the place of a slot's word, by the role of the slot. -/
def Role.place : Role → Place
  | .input c => .input c
  | .output a => .output a
  | .status => .status
  | .control => .control

theorem SlotMap.placeOf_slot (m : SlotMap) {n p : Nat} (h3 : 3 ≤ p) (hn : p < 3 + n) :
    m.placeOf n p = (m.roleOf (p - 3)).elim .plain Role.place := by
  unfold SlotMap.placeOf
  rw [if_neg (by omega), if_neg (by omega), if_pos hn]
  cases m.roleOf (p - 3) with
  | none => rfl
  | some r => cases r <;> rfl

/-! ## The break word -/

/-- R11: the break word gains the membership groups in its low byte, and loses no bit. -/
theorem breakWord_keeps (w : Word) (m : Byte) : highByte (w ||| m.setWidth 16) = highByte w ∧ w &&& (w ||| m.setWidth 16) = w := by
  constructor
  · apply BitVec.eq_of_getLsbD_eq
    intro i hi
    simp [highByte]
  · apply BitVec.eq_of_getLsbD_eq
    intro i hi
    simp only [BitVec.getLsbD_and, BitVec.getLsbD_or]
    cases w.getLsbD i <;> simp

theorem Device.breakWordOut_keeps (d : Device) (w : Word) :
    highByte (d.breakWordOut w) = highByte w ∧ w &&& d.breakWordOut w = w := by
  unfold Device.breakWordOut
  split
  · exact breakWord_keeps w _
  · exact ⟨rfl, BitVec.and_self⟩

theorem Device.breakWordOut_eq (d : Device) (w : Word) : d.breakWordOut w =
    if d.mailbox.ready = true ∧ d.monitor.state = .broken then w ||| d.monitor.membership.setWidth 16 else w := by
  simp only [Device.breakWordOut, Bool.and_eq_true, beq_iff_eq]

/-! ## The command area -/

/-- R8: words of the command area are staged as received, and leave so. -/
theorem Device.passWords_command {n : Nat} (ws : List Word) {d : Device} (hr : d.lines.rstn = true) (hp : d.port.frame.passage = .cycle n)
    (hfirst : 3 + n ≤ d.port.frame.position) (hlast : d.port.frame.position + ws.length ≤ 16 + n) :
    ∃ f : FramePassage, d.passWords ws = d.setFrame f
      ∧ f.staging = { d.port.frame.staging with command := d.port.frame.staging.command ++ ws }
      ∧ f.ringOut = d.port.frame.ringOut ++ ws ∧ f.position = d.port.frame.position + ws.length ∧ f.passage = .cycle n := by
  induction ws generalizing d with
  | nil => exact ⟨d.port.frame, rfl, by simp, by simp, rfl, hp⟩
  | cons w ws ih =>
    rw [List.length_cons] at hlast
    have hplace : d.place = .command := by
      rw [Device.place_cycle hr hp]
      rcases SlotMap.placeOf_cases d.slotMap n d.port.frame.position with
        h | h | h | ⟨_, _, _, h⟩ | h | h | h | h | h
      case inr.inr.inr.inl => exact h
      all_goals omega
    obtain ⟨f, he, hs, ho, hpos, hf⟩ := ih (d := d.passCommandWord w) hr hp (Nat.le_succ_of_le hfirst)
      (by show d.port.frame.position + 1 + ws.length ≤ _; omega)
    refine ⟨f, ?_, ?_, ?_, ?_, hf⟩
    · rw [Device.passWords_cons, Device.passWords_at hplace]
      exact he
    · rw [hs]
      simp [Device.passCommandWord, FramePassage.emit]
    · rw [ho]
      simp [Device.passCommandWord, FramePassage.emit]
    · rw [hpos]
      show d.port.frame.position + 1 + ws.length = _
      rw [List.length_cons]
      omega

/-! ## Any word -/

/-- R1: a word at a place of a frame moves the position on by one. -/
theorem Device.passAt_position (d : Device) (w : Word) {p : Place} (h : p ≠ .outside) :
    (d.passAt w p).port.frame.position = d.port.frame.position + 1 := by
  cases p with
  | outside => exact absurd rfl h
  | output a =>
    simp only [Device.passAt, Device.passOutput]
    split <;> rfl
  | resultHead =>
    simp only [Device.passAt, Device.passResultHead]
    split
    · split <;> rfl
    · rfl
  | resultRest =>
    simp only [Device.passAt, Device.passResultRest]
    split <;> rfl
  | unserved | plain | breakWord | input | control | status | command | crcHigh | crcLow => rfl

/-- A word stands outside exactly between frames. -/
theorem Device.place_outside {d : Device} (h : d.port.frame.passage ≠ .idle) : d.place ≠ .outside := by
  cases hp : d.port.frame.passage with
  | idle => exact absurd hp h
  | malformed | transparent => simp [Device.place, hp]
  | cycle n =>
    cases hr : d.lines.rstn with
    | false => simp [Device.place, hp, hr]
    | true =>
      rw [Device.place_cycle hr hp]
      rcases SlotMap.placeOf_cases d.slotMap n d.port.frame.position with
        ⟨_, h⟩ | ⟨_, h⟩ | ⟨_, _, ⟨c, h⟩ | h | ⟨a, h⟩ | h | h⟩ | ⟨_, _, _, h⟩ | ⟨_, h⟩ | ⟨_, _, h⟩ | ⟨_, h⟩ | ⟨_, h⟩ | ⟨_, h⟩
      all_goals rw [h]; simp

/-- R8 to R12: a row that names one word passes it at its place, after the skipped words. -/
theorem exec_passesWord_at {i : Instr} {sk : List Word} {w : Word} (h : passedWord i = some (sk, w)) {s : State} {p : Place}
    (hp : (s.dev.passWords sk).place = p) : exec i s = .next { s with dev := (s.dev.passWords sk).passAt w p } := by
  rw [exec_passesWord h, Device.passWords_append, Device.passWords_at hp]

/-- Settles O7: what is staged, from the place of each word. -/
theorem stagedWordsAreKeptAsReceived : Obligations.StagedWordsAreKeptAsReceived := by
  refine ⟨fun sk w s => ?_, fun sk area s n => ?_, fun d n hr hp hm => ?_, fun w rest d => ?_, fun sk w s => ?_⟩
  · intro d
    have hat : ∀ {i p}, passedWord i = some (sk, w) → d.place = p → exec i s = .next { s with dev := d.passAt w p } :=
      fun hi hp => exec_passesWord_at hi hp
    clear_value d
    rw [← d.breakWordOut_eq w]
    exact ⟨hat rfl, (d.breakWordOut_keeps w).1, (d.breakWordOut_keeps w).2, fun c => hat rfl, hat rfl⟩
  · intro d hr hp hpos
    obtain ⟨f, he, hs, ho, hpos', hf⟩ := Device.passWords_command area.toList hr hp (Nat.le_of_eq hpos.symm) (by
      rw [Vector.length_toList]; omega)
    refine ⟨f, ?_, hs, ho, ?_, hf⟩
    · rw [exec_stageCommandArea, Device.passWords_append, he]
    · rw [hpos', hpos, Vector.length_toList]
      omega
  · intro p
    have hplace : d.place = d.slotMap.placeOf n p := Device.place_cycle hr hp
    have hcases := SlotMap.placeOf_cases d.slotMap n p
    rw [← hplace] at hcases
    refine ⟨fun h => ?_, fun h => ?_, fun i x hx hn h => ?_, fun h3 hn h => ?_, fun h h' => ?_, fun h => ?_, fun h h' => ?_, fun h => ?_,
      fun h => ?_, fun h => ?_⟩
    case refine_3 =>
      rw [hplace, SlotMap.placeOf_slot _ (by omega) (by omega), show p - 3 = x.slot.val by omega, SlotMap.roleOf_of_entry hm hx]
      rfl
    case refine_4 =>
      rw [hplace, SlotMap.placeOf_slot _ h3 hn, SlotMap.roleOf_of_free fun i x hx he => h i x hx (by omega)]
      rfl
    all_goals
      rcases hcases with ⟨_, hc⟩ | ⟨_, hc⟩ | ⟨_, _, _⟩ | ⟨_, _, _, hc⟩ | ⟨_, hc⟩ | ⟨_, _, hc⟩ | ⟨_, hc⟩ | ⟨_, hc⟩ | ⟨_, hc⟩
    all_goals omega
  · intro f
    have hat : ∀ {p}, d.place = p → d.passWord w = d.passAt w p := fun h => Device.passWords_at h w
    refine ⟨rfl, rfl, fun h => ⟨?_, Device.passAt_position d w (Device.place_outside h)⟩, fun h => ?_, fun h => ?_, hat, hat⟩
    · obtain ⟨_, _, _, he, hf⟩ := Device.passAt_frame d w d.place
      rw [Device.passWord, he]
      exact hf
    · exact Device.passWords_idle h [w]
    · exact Device.OnlyForwards.place (.inr h)
  · have passes : ∀ {i}, passedWord i = some (sk, w) → exec i s = .next { s with dev := (s.dev.passWords sk).passWord w } :=
      fun h => by rw [exec_passesWord h, Device.passWords_append]; rfl
    exact ⟨passes rfl, passes rfl, passes rfl, passes rfl, passes rfl, passes rfl⟩

/-! ## Slots that the device fills -/

/-- R155: in READY an OUTPUT slot carries its actuator's value after the advance. -/
theorem Device.passOutput_ready {d : Device} (h : d.mailbox.ready = true) (a : Fin 16) (w : Word) :
    d.passOutput a w = (d.setActuator a (d.actuators[a].pass (d.sourceValue d.actuators[a]))).setFrame
      (d.port.frame.emit w (toWord (d.actuators[a].pass (d.sourceValue d.actuators[a])).value)) := by
  unfold Device.passOutput
  rw [if_pos h]
  simp only [Device.passActuator, Device.setActuator_read]
  rfl

/-- R9: in UNCONFIGURED an OUTPUT slot leaves as received. -/
theorem Device.passOutput_unconfigured {d : Device} (h : d.mailbox.ready = false) (a : Fin 16) (w : Word) :
    d.passOutput a w = d.passPlain w := if_neg (by simp [h])

theorem Actuator.followsZone_iff (a : Actuator) : a.followsZone = true ↔ a.source.kind = .zone ∧ a.converging = false := by
  simp [Actuator.followsZone]

/-- R154: the source advance of an actuator that a slot has just reached. -/
theorem Actuator.sourceAdvance_seen (x : Actuator) (s : Int) :
    ({ x with unseen := false } : Actuator).sourceAdvance s =
      let advanced := if x.source.kind = .zone ∧ x.converging = false then s else moveToward x.slewMax s x.value
      { x with unseen := false, value := advanced, converging := if advanced = s then false else x.converging } := by
  unfold Actuator.sourceAdvance
  simp only [Actuator.followsZone_iff]

theorem Actuator.pass_none {x : Actuator} (h : x.phase = .none) (s : Int) : x.pass s = ({ x with unseen := false } : Actuator).sourceAdvance s := by
  cases x; cases h; rfl

theorem Actuator.pass_delaying {x : Actuator} (h : x.phase = .delaying) (s : Int) :
    x.pass s = (({ x with unseen := false } : Actuator).sourceAdvance s).countPassing := by
  cases x; cases h; rfl

theorem Actuator.pass_acting {x : Actuator} (h : x.phase = .acting) (s : Int) :
    x.pass s = ({ x with unseen := false } : Actuator).breakAdvance s := by
  cases x; cases h; rfl

theorem Actuator.breakAdvance_follow {x : Actuator} (h : x.action = .follow) (s : Int) : x.breakAdvance s = x.sourceAdvance s := by
  unfold Actuator.breakAdvance; rw [h]

theorem Actuator.breakAdvance_hold {x : Actuator} (h : x.action = .hold) (s : Int) : x.breakAdvance s = x := by
  unfold Actuator.breakAdvance; rw [h]

theorem Actuator.breakAdvance_force {x : Actuator} (h : x.action = .force) (s : Int) : x.breakAdvance s = { x with value := x.actionValue } := by
  unfold Actuator.breakAdvance; rw [h]

theorem Actuator.breakAdvance_ramp {x : Actuator} (h : x.action = .ramp) (s : Int) :
    x.breakAdvance s = { x with value := moveToward x.step x.actionValue x.value } := by
  unfold Actuator.breakAdvance; rw [h]

/-- Settles O8: the words that the device inserts, and one slot passing by phase. -/
theorem insertedWordsCarryTheDevicesValues : Obligations.InsertedWordsCarryTheDevicesValues := by
  refine ⟨fun sk w s a => ?_, fun sk w s => ?_, fun x src => ?_⟩
  · intro d x f hp
    refine ⟨fun hr => ?_, fun hr => ?_⟩
    · rw [exec_passesWord_at (i := .outputSlotPassing sk w) rfl hp]
      exact congrArg (fun e => Host.Outcome.next { s with dev := e }) (Device.passOutput_ready hr a w)
    · rw [exec_passesWord_at (i := .outputSlotPassing sk w) rfl hp]
      exact congrArg (fun e => Host.Outcome.next { s with dev := e }) (Device.passOutput_unconfigured hr a w)
  · intro d out f hp
    exact exec_passesWord_at (i := .statusSlotPassing sk w) rfl hp
  · intro advanced followed
    have hf : ({ x with unseen := false } : Actuator).sourceAdvance src = followed := x.sourceAdvance_seen src
    refine ⟨fun h => ?_, fun h => ?_, fun h ha => ?_, fun h ha => ?_, fun h ha => ?_, fun h ha => ?_⟩
    · rw [Actuator.pass_none h, hf]
    · rw [Actuator.pass_delaying h, hf]
      rfl
    · rw [Actuator.pass_acting h, Actuator.breakAdvance_follow (by exact ha), hf]
    · rw [Actuator.pass_acting h, Actuator.breakAdvance_hold (by exact ha)]
    · rw [Actuator.pass_acting h, Actuator.breakAdvance_force (by exact ha)]
    · rw [Actuator.pass_acting h, Actuator.breakAdvance_ramp (by exact ha)]

/-! ## The result area -/

/-- R12: the words of a result that still wait are inserted one for one, as far as the result area reaches. -/
theorem Device.passWords_result {n : Nat} (tail : List Word) {d : Device} (hr : d.lines.rstn = true) (hp : d.port.frame.passage = .cycle n)
    (hfirst : 16 + n < d.port.frame.position) (hlast : d.port.frame.position + tail.length ≤ 32 + n)
    (hwords : d.port.frame.resultWords.length = tail.length) :
    (d.passWords tail).port.frame.ringOut = d.port.frame.ringOut ++ d.port.frame.resultWords := by
  induction tail generalizing d with
  | nil => rw [List.eq_nil_of_length_eq_zero hwords, List.append_nil]; rfl
  | cons w tail ih =>
    rw [List.length_cons] at hlast
    have hplace : d.place = .resultRest := by
      rw [Device.place_cycle hr hp]
      rcases SlotMap.placeOf_cases d.slotMap n d.port.frame.position with
        h | h | h | h | h | ⟨_, _, h⟩ | h | h | h
      case inr.inr.inr.inr.inr.inl => exact h
      all_goals omega
    obtain ⟨x, xs, hx⟩ := List.exists_cons_of_length_pos (l := d.port.frame.resultWords) (by rw [hwords]; exact Nat.succ_pos _)
    have hstep : d.passWords [w] = d.setFrame ({ d.port.frame with resultWords := xs }.emit w x) := by
      rw [Device.passWords_at hplace]
      simp only [Device.passAt, Device.passResultRest, hx]
    rw [Device.passWords_cons, hstep, ih (by exact hr) (by exact hp) (by exact Nat.lt_succ_of_lt hfirst)
      (by show d.port.frame.position + 1 + tail.length ≤ _; omega) (by
        rw [hx] at hwords
        exact Nat.succ.inj hwords), hx]
    simp [FramePassage.emit]

/-- A place of a served frame tells the frame and its word. -/
theorem Device.place_served {d : Device} (h : d.place ≠ .outside) (h' : d.place ≠ .unserved) :
    ∃ n, d.lines.rstn = true ∧ d.port.frame.passage = .cycle n ∧ d.place = d.slotMap.placeOf n d.port.frame.position := by
  cases hp : d.port.frame.passage with
  | idle => exact absurd (by simp [Device.place, hp]) h
  | malformed | transparent => exact absurd (by simp [Device.place, hp]) h'
  | cycle n =>
    cases hr : d.lines.rstn with
    | false => exact absurd (by simp [Device.place, hp, hr]) h'
    | true => exact ⟨n, rfl, rfl, Device.place_cycle hr hp⟩

theorem Device.place_resultHead {d : Device} (h : d.place = .resultHead) :
    ∃ n, d.lines.rstn = true ∧ d.port.frame.passage = .cycle n ∧ d.port.frame.position = 16 + n := by
  obtain ⟨n, hr, hp, he⟩ := Device.place_served (d := d) (by simp [h]) (by simp [h])
  refine ⟨n, hr, hp, ?_⟩
  rcases SlotMap.placeOf_cases d.slotMap n d.port.frame.position with
    ⟨_, hc⟩ | ⟨_, hc⟩ | ⟨_, _, ⟨c, hc⟩ | hc | ⟨a, hc⟩ | hc | hc⟩ | ⟨_, _, _, hc⟩ | ⟨hpos, _⟩ | ⟨_, _, hc⟩ | ⟨_, hc⟩ | ⟨_, hc⟩ | ⟨_, hc⟩
  case inr.inr.inr.inr.inl => exact hpos
  all_goals exact absurd (h.symm.trans (he.trans hc)) (by simp)

/-- R12: a result that is not written: word 0 of the area leaves as received. -/
theorem Device.passResultHead_plain {d : Device} {w : Word} (h : d.mailbox.pending = none ∨ w ≠ 0) : d.passResultHead w = d.passPlain w := by
  unfold Device.passResultHead
  dsimp only
  split
  · next r hr => exact if_neg (h.resolve_left (by simp [hr]))
  · rfl

/-- R12: a pending result begins to fill an empty area. -/
theorem Device.passResultHead_written {d : Device} {r : MailResult} (h : d.mailbox.pending = some r) :
    d.passResultHead 0 = ({ d with mailbox := { d.mailbox with written := true } } : Device).setFrame
      ({ d.port.frame with resultWords := r.words }.emit 0 (d.mailbox.nodeAddress.setWidth 16)) := by
  unfold Device.passResultHead
  simp only [h, if_true]

/-- Settles O9: an area that arrives empty takes the result; any other word leaves as received. -/
theorem pendingResultFillsAnEmptyArea : Obligations.PendingResultFillsAnEmptyArea := by
  intro sk w s d hplace
  have hat : exec (.resultAreaPassing sk w) s = .next { s with dev := d.passResultHead w } := exec_passesWord_at rfl hplace
  clear_value d
  refine ⟨fun r hpending hw => ?_, fun h => by rw [hat, Device.passResultHead_plain h]⟩
  subst hw
  obtain ⟨n, hr, hp, hpos⟩ := Device.place_resultHead hplace
  rw [Device.passResultHead_written hpending] at hat
  refine ⟨_, hat, rfl, rfl, fun tail ht => ?_⟩
  rw [Device.passWords_result (n := n) tail (by exact hr) (by exact hp) (by show 16 + n < d.port.frame.position + 1; omega)
    (by show d.port.frame.position + 1 + tail.length ≤ 32 + n; omega)
    (by show r.words.length = tail.length; rw [ht]; simp [MailResult.words])]
  simp [FramePassage.emit, MailResult.words]

/-! ## The CRC words -/

theorem Device.place_crcHigh {d : Device} (h : d.place = .crcHigh) :
    ∃ n, d.lines.rstn = true ∧ d.port.frame.passage = .cycle n ∧ d.port.frame.position = 32 + n := by
  obtain ⟨n, hr, hp, he⟩ := Device.place_served (d := d) (by simp [h]) (by simp [h])
  refine ⟨n, hr, hp, ?_⟩
  rcases SlotMap.placeOf_cases d.slotMap n d.port.frame.position with
    ⟨_, hc⟩ | ⟨_, hc⟩ | ⟨_, _, ⟨c, hc⟩ | hc | ⟨a, hc⟩ | hc | hc⟩ | ⟨_, _, _, hc⟩ | ⟨_, hc⟩ | ⟨_, _, hc⟩ | ⟨hpos, _⟩ | ⟨_, hc⟩ | ⟨_, hc⟩
  case inr.inr.inr.inr.inr.inr.inl => exact hpos
  all_goals exact absurd (h.symm.trans (he.trans hc)) (by simp)

theorem SlotMap.placeOf_crcHigh (m : SlotMap) (n : Nat) : m.placeOf n (32 + n) = .crcHigh := by
  rcases m.placeOf_cases n (32 + n) with h | h | h | h | h | h | ⟨_, h⟩ | h | h
  case inr.inr.inr.inr.inr.inr.inl => exact h
  all_goals omega

theorem SlotMap.placeOf_crcLow (m : SlotMap) (n : Nat) : m.placeOf n (33 + n) = .crcLow := by
  rcases m.placeOf_cases n (33 + n) with h | h | h | h | h | h | h | ⟨_, h⟩ | h
  case inr.inr.inr.inr.inr.inr.inr.inl => exact h
  all_goals omega

/-- R13: the frame record after its two CRC words. -/
def FramePassage.checked (f : FramePassage) (high low : Word) : FramePassage :=
  { f with
    position := f.position + 2, crcHigh := none, crcGood := f.crcMatches high low
    ringOut := f.ringOut ++ [highHalf (f.crcSent (f.crcMatches high low)), lowHalf (f.crcSent (f.crcMatches high low))] }

/-- R13: both CRC words are compared, and replaced, when the low one has come. -/
theorem Device.passWords_crc {d : Device} {n : Nat} (hr : d.lines.rstn = true) (hp : d.port.frame.passage = .cycle n)
    (hpos : d.port.frame.position = 32 + n) (high low : Word) : d.passWords [high, low] = d.setFrame (d.port.frame.checked high low) := by
  have hhigh : d.place = .crcHigh := by rw [Device.place_cycle hr hp, hpos, SlotMap.placeOf_crcHigh]
  have hlow : (d.passCrcHigh high).place = .crcLow := by
    rw [Device.place_cycle (n := n) (by exact hr) (by exact hp), show (d.passCrcHigh high).port.frame.position = 33 + n by
      show d.port.frame.position + 1 = _; omega, SlotMap.placeOf_crcLow]
  rw [Device.passWords_cons, Device.passWords_at hhigh]
  show (d.passCrcHigh high).passWords [low] = _
  rw [Device.passWords_at hlow]
  rfl

theorem FramePassage.crcMatches_iff (f : FramePassage) (high low : Word) : f.crcMatches high low = true ↔ high ++ low = ~~~f.crcIn := by
  simp [FramePassage.crcMatches]

/-- Settles O10: the check of the two CRC words and what leaves in their place. -/
theorem crcWordsAreCheckedAndReplaced : Obligations.CrcWordsAreCheckedAndReplaced := by
  intro sk high low s d f hplace
  obtain ⟨n, hr, hp, hpos⟩ := Device.place_crcHigh hplace
  refine ⟨f.checked high low, ?_, f.crcMatches_iff high low, fun h => ?_, fun h => ?_, rfl, rfl, rfl⟩
  · rw [exec_crcPassing, Device.passWords_append, Device.passWords_crc hr hp hpos]
  · simp only [FramePassage.checked, (f.crcMatches_iff high low).mpr h, FramePassage.crcSent, if_true]
  · have hbad : f.crcMatches high low = false := Bool.eq_false_iff.mpr fun hm => h ((f.crcMatches_iff high low).mp hm)
    simp only [FramePassage.checked, hbad, FramePassage.crcSent, Bool.false_eq_true, if_false]

/-! ## A whole frame -/

/-- R13: the words before the CRC words join the two running CRCs, one of them as received and one as sent. -/
theorem Device.passWords_running {n : Nat} (ws : List Word) {d : Device} (hr : d.lines.rstn = true) (hp : d.port.frame.passage = .cycle n)
    (hlast : d.port.frame.position + ws.length ≤ 32 + n) :
    ∃ out : List Word, out.length = ws.length
      ∧ (d.passWords ws).lines.rstn = true ∧ (d.passWords ws).port.frame.passage = .cycle n
      ∧ (d.passWords ws).port.frame.position = d.port.frame.position + ws.length
      ∧ (d.passWords ws).port.frame.crcIn = ws.foldl crcWord d.port.frame.crcIn
      ∧ (d.passWords ws).port.frame.crcOut = out.foldl crcWord d.port.frame.crcOut
      ∧ (d.passWords ws).port.frame.ringOut = d.port.frame.ringOut ++ out := by
  induction ws generalizing d with
  | nil => exact ⟨[], rfl, hr, hp, rfl, rfl, rfl, (List.append_nil _).symm⟩
  | cons w ws ih =>
    rw [List.length_cons] at hlast
    obtain ⟨o, hpos, hin, hout, hring⟩ := Device.passWord_crc hr hp (by omega) w
    obtain ⟨_, _, _, he, hf⟩ := Device.passWords_frame d [w]
    have hr' : (d.passWords [w]).lines.rstn = true := by rw [he]; exact hr
    have hp' : (d.passWords [w]).port.frame.passage = .cycle n := by rw [he]; exact hf.trans hp
    obtain ⟨out, hlen, hr2, hp2, hpos2, hin2, hout2, hring2⟩ := ih hr' hp' (by
      show (d.passWord w).port.frame.position + _ ≤ _
      omega)
    rw [← Device.passWords_cons] at hr2 hp2 hpos2 hin2 hout2 hring2
    refine ⟨o :: out, by simp [hlen], hr2, hp2, ?_, ?_, ?_, ?_⟩
    · rw [hpos2]
      show (d.passWord w).port.frame.position + _ = _
      rw [hpos, List.length_cons]
      omega
    · rw [hin2]
      exact congrArg (List.foldl crcWord · ws) hin
    · rw [hout2]
      exact congrArg (List.foldl crcWord · out) hout
    · rw [hring2]
      exact (congrArg (· ++ out) hring).trans (by simp)

/-- Settles O11: the two running CRCs over the whole frame, closed by the check of its CRC words. -/
theorem goodFrameLeavesGood : Obligations.GoodFrameLeavesGood := by
  intro w0 body high low s n crc hr hk hn h16 h128 hbody
  subst hn
  obtain ⟨as, _, he, -⟩ := Device.beginFrame_served hr hk ⟨h16, h128⟩
  obtain ⟨out, hlen, hr2, hp2, hpos2, hin2, hout2, hring2⟩ := Device.passWords_running (n := slotCount w0) body (d := s.dev.beginFrame w0)
    (by rw [he]; exact hr) (by rw [he]; rfl) (by rw [he]; show 1 + _ ≤ _; omega)
  have hframe : (s.dev.beginFrame w0).port.frame = startedFrame (.cycle (slotCount w0)) w0 := by rw [he]
  rw [hframe] at hpos2 hin2 hout2 hring2
  have hposition : ((s.dev.beginFrame w0).passWords body).port.frame.position = 32 + slotCount w0 := by
    rw [hpos2]
    show 1 + body.length = _
    omega
  have hcheck := Device.passWords_crc hr2 hp2 hposition high low
  refine ⟨_, _, exec_cycleFrameW0 w0 s, exec_crcPassing body high low _, ?_⟩
  simp only [Device.passWords_append, hcheck]
  have hring : ((s.dev.beginFrame w0).passWords body).port.frame.ringOut = w0 :: out := hring2
  have hlen' : (w0 :: out).length = slotCount w0 + 32 := by rw [List.length_cons, hlen, hbody]
  have hin : crc (w0 :: body) = ~~~((s.dev.beginFrame w0).passWords body).port.frame.crcIn := by rw [hin2]; rfl
  have hsent : crc (w0 :: out) = ~~~((s.dev.beginFrame w0).passWords body).port.frame.crcOut := by rw [hout2]; rfl
  generalize ((s.dev.beginFrame w0).passWords body) = e at *
  simp only [Device.setFrame_port, FramePassage.checked, hring, hin]
  refine ⟨hp2, by omega, by rw [List.length_append, hlen']; rfl, FramePassage.crcMatches_iff _ high low, ?_⟩
  rw [← hlen', List.take_left, List.drop_left, hsent]
  cases e.port.frame.crcMatches high low <;> simp [FramePassage.crcSent]

end Sys2Proof.Machine

/-! Identity, status and the reads of the ring and the channels, and the writes of the Slot Map (O23, O25, O26). -/

namespace Sys2Proof.Machine

/-! ## The fields of a packed word -/

theorem natWord_getLsbD {i : Nat} (hi : i < 16) (n : Nat) : (BitVec.ofNat 16 n).getLsbD i = decide (n / 2 ^ i % 2 = 1) := by
  rw [BitVec.getLsbD_ofNat, decide_eq_true hi, Bool.true_and, Nat.testBit_eq_decide_div_mod_eq]

theorem natWord_extract {s l : Nat} (h : s + l ≤ 16) (n : Nat) : ((BitVec.ofNat 16 n).extractLsb' s l).toNat = n / 2 ^ s % 2 ^ l := by
  rw [BitVec.extractLsb'_toNat, BitVec.toNat_ofNat, Nat.shiftRight_eq_div_pow]
  have hsplit : (2 : Nat) ^ 16 = 2 ^ s * 2 ^ (16 - s) := by rw [← Nat.pow_add]; congr 1; omega
  rw [hsplit, Nat.mod_mul_right_div_self, Nat.mod_mod_of_dvd _ (Nat.pow_dvd_pow 2 (by omega))]

/-! ## The class of the queue -/

theorem List.foldl_min_spec (ps : List Nat) (p : Nat) : ps.foldl min p ∈ p :: ps ∧ ∀ x ∈ p :: ps, ps.foldl min p ≤ x := by
  induction ps generalizing p with
  | nil => simp
  | cons q ps ih =>
    obtain ⟨hmem, hle⟩ := ih (min p q)
    rw [List.foldl_cons]
    refine ⟨?_, fun x hx => ?_⟩
    · rcases List.mem_cons.mp hmem with h | h
      · rw [h]
        rcases min_choice p q with h' | h' <;> simp [h']
      · exact List.mem_cons_of_mem _ (List.mem_cons_of_mem _ h)
    · have hhead := hle _ List.mem_cons_self
      rcases List.mem_cons.mp hx with rfl | hx
      · omega
      · rcases List.mem_cons.mp hx with rfl | hx
        · omega
        · exact hle x (List.mem_cons_of_mem _ hx)

theorem EventKind.priority_range (k : EventKind) : 1 ≤ k.priority ∧ k.priority ≤ 6 := by cases k <;> decide

/-- R189: the class of a queue that is not empty is the least priority held. -/
theorem EventQueue.eventClass_spec (q : EventQueue) :
    (q.records = [] ∧ q.eventClass = 0)
      ∨ ((∃ e ∈ q.records, q.eventClass = e.kind.priority) ∧ ∀ e ∈ q.records, q.eventClass ≤ e.kind.priority) := by
  unfold EventQueue.eventClass
  cases hq : q.records with
  | nil => exact .inl ⟨rfl, rfl⟩
  | cons e es =>
    refine .inr ?_
    obtain ⟨hmem, hle⟩ := List.foldl_min_spec (es.map fun e => e.kind.priority) e.kind.priority
    rw [← List.map_cons (f := fun e : EventRecord => e.kind.priority)] at hmem hle
    obtain ⟨x, hx, hxe⟩ := List.mem_map.mp hmem
    exact ⟨⟨x, hx, hxe.symm⟩, fun y hy => hle _ (List.mem_map_of_mem hy)⟩

theorem EventQueue.eventClass_range (q : EventQueue) : q.eventClass ≤ 6 := by
  rcases q.eventClass_spec with ⟨_, h⟩ | ⟨⟨e, _, h⟩, _⟩
  · omega
  · rw [h]; exact e.kind.priority_range.2

theorem EventQueue.eventClass_zero (q : EventQueue) : q.eventClass = 0 ↔ q.records = [] := by
  rcases q.eventClass_spec with ⟨hr, h⟩ | ⟨⟨e, he, h⟩, _⟩
  · simp [h, hr]
  · have := e.kind.priority_range.1
    exact ⟨fun h0 => by omega, fun h0 => by simp [h0] at he⟩

/-! ## The status word -/

theorem BreakState.code_range (b : BreakState) : b.code ≤ 3 := by cases b <;> decide

theorem CaptureState.code_range (c : CaptureState) : c.code ≤ 4 := by cases c <;> decide

/-- R1, R10: the fields of the status word, by their bits. -/
theorem Device.statusWord_fields (d : Device) :
    d.statusWord.getLsbD 0 = d.mailbox.ready ∧ (d.statusWord.extractLsb' 1 2).toNat = d.monitor.state.code
      ∧ d.statusWord.getLsbD 3 = (d.permit == .asserted) ∧ (d.statusWord.extractLsb' 4 3).toNat = d.events.eventClass
      ∧ (d.statusWord.extractLsb' 7 3).toNat = d.capture.state.code ∧ d.statusWord.getLsbD 10 = d.mailbox.executing.isSome
      ∧ d.statusWord.getLsbD 11 = d.mailbox.pending.isSome ∧ d.statusWord.getLsbD 12 = d.events.overrun
      ∧ d.statusWord.getLsbD 13 = d.anyZoneFault ∧ d.statusWord.getLsbD 14 = (d.speed.state == .unknown)
      ∧ d.statusWord.getLsbD 15 = (d.port.link == .locked) := by
  have hm := d.monitor.state.code_range
  have hq := d.events.eventClass_range
  have hc := d.capture.state.code_range
  have bit : ∀ {b : Bool} {n i : Nat}, i < 16 → n / 2 ^ i % 2 = b.toNat → (BitVec.ofNat 16 n).getLsbD i = b := fun {b n i} hi h => by
    rw [natWord_getLsbD hi, h]
    cases b <;> rfl
  unfold Device.statusWord
  have b1 := Bool.toNat_le d.mailbox.ready
  have b2 := Bool.toNat_le (d.permit == .asserted)
  have b3 := Bool.toNat_le d.mailbox.executing.isSome
  have b4 := Bool.toNat_le d.mailbox.pending.isSome
  have b5 := Bool.toNat_le d.events.overrun
  have b6 := Bool.toNat_le d.anyZoneFault
  have b7 := Bool.toNat_le (d.speed.state == .unknown)
  have b8 := Bool.toNat_le (d.port.link == .locked)
  refine ⟨bit (by decide) ?_, ?_, bit (by decide) ?_, ?_, ?_, bit (by decide) ?_, bit (by decide) ?_, bit (by decide) ?_, bit (by decide) ?_,
    bit (by decide) ?_, bit (by decide) ?_⟩
  case refine_2 | refine_4 | refine_5 => rw [natWord_extract (by decide)]; omega
  all_goals omega

theorem Device.anyZoneFault_iff (d : Device) : d.anyZoneFault = true ↔ ∃ z : Fin 12, d.zones[z].mode = .fault := by
  simp [Device.anyZoneFault]

/-! ## Rows of the mailbox -/

theorem Cmd.ofCode_unknown {code : Byte} (h : code = 0 ∨ 19 < code.toNat) (p : Nat → Word) : Cmd.ofCode code p = .unknown code := by
  have hn : code.toNat = 0 ∨ 19 < code.toNat := h.imp_left (by rintro rfl; rfl)
  unfold Cmd.ofCode
  split
  any_goals omega
  rfl

/-- Settles O23: the answers from their rules, the fields of the status word from its bits. -/
theorem identityAndStatusWordsAnswer : Obligations.IdentityAndStatusWordsAnswer := by
  refine ⟨fun tag code s hf => ?_, fun d => ?_⟩
  · intro d link
    have hlink : natWord d.port.link.code = link := by
      show natWord d.port.link.code = match d.port.link with | .searching => 0 | .locked => 1 | .lost => 2
      cases d.port.link <;> rfl
    have hidle : d.mailbox.executing.isSome = false ∧ d.mailbox.pending.isSome = false := by
      have := hf.2
      simpa [Device.mailboxFree] using this
    obtain ⟨-, -, -, -, -, hexec, hpending, -⟩ := d.statusWord_fields
    refine ⟨fun h => ?_, ?_, ?_, hexec.trans hidle.1, hpending.trans hidle.2⟩
    · exact answers_of (c := .unknown code) (congrArg (fun c => s.become (s.dev.handOff tag c)) (Cmd.ofCode_unknown h _)) hf (by simp) rfl
        (.inr rfl) rfl
    · exact answers_of (c := .identify) rfl hf (by simp) rfl (.inr rfl) (by
        show s.dev.replyIdentify = _
        rw [← hlink]
        rfl)
    · exact answers_of (c := .readStatus) rfl hf (by simp) rfl (.inr rfl) (by
        show s.dev.replyReadStatus = _
        rw [← hlink]
        rfl)
  · intro w
    obtain ⟨hready, hmonitor, hpermit, hclass, hcapture, hexec, hpending, hoverrun, hfault, hspeed, hlink⟩ := d.statusWord_fields
    refine ⟨hready, BitVec.eq_of_toNat_eq ?_, ?_, ?_, ?_, ?_, BitVec.eq_of_toNat_eq ?_, hexec, hpending, hoverrun, ?_, ?_, ?_⟩
    · rw [hmonitor]
      cases d.monitor.state <;> rfl
    · rw [hpermit, beq_iff_eq]
    · rw [← d.events.eventClass_zero, ← hclass]
      exact (BitVec.toNat_inj (x := w.extractLsb' 4 3) (y := 0#3)).symm
    · intro e he
      rw [hclass]
      rcases d.events.eventClass_spec with ⟨hn, h⟩ | ⟨_, h⟩
      · omega
      · exact h e he
    · intro hn
      rw [hclass]
      rcases d.events.eventClass_spec with ⟨h, _⟩ | ⟨h, _⟩
      · exact absurd h hn
      · exact h
    · rw [hcapture]
      cases d.capture.state <;> rfl
    · rw [hfault, d.anyZoneFault_iff]
    · rw [hspeed, beq_iff_eq]
    · rw [hlink, beq_iff_eq]

/-! ## The reads of the ring and the channels -/

/-- R28: the enables as one word. -/
theorem enables_word (hi lo stale : Bool) :
    natWord (hi.toNat + 2 * lo.toNat + 4 * stale.toNat) = 0#13 ++ BitVec.ofBool stale ++ BitVec.ofBool lo ++ BitVec.ofBool hi := by
  cases hi <;> cases lo <;> cases stale <;> rfl

/-- R58: the words of a bank from entry `i`, 0 beyond the sixteenth. -/
theorem Curve.words_eq (c : Curve) (i : Nat) :
    c.words i = natWord c.length :: (List.range 4).flatMap fun j =>
      if h : i + j < 16 then [toWord (c.entries[i + j]).speed, toWord (c.entries[i + j]).setpoint, toWord (c.entries[i + j]).feedforward]
      else [0, 0, 0] := by
  unfold Curve.words
  congr 2
  funext j
  by_cases h : i + j < 16
  · rw [dif_pos h, List.getElem?_eq_getElem (by simpa using h)]
    rfl
  · rw [dif_neg h, List.getElem?_eq_none (by simpa using h)]

theorem replyReadBank_of_eq (bank : Vector Curve 12) {record : Byte} {first : Word} {c : Fin 12} {i : Fin 16} (hc : record.toNat = c.val)
    (hi : first.toNat = i.val) : replyReadBank bank record first = .data (bank[c].words i.val) := by
  unfold replyReadBank
  rw [recordIndex_of_eq hc, wordIndex_of_eq hi]

theorem replyReadBank_of_le (bank : Vector Curve 12) {record : Byte} {first : Word} (h : 12 ≤ record.toNat ∨ 16 ≤ first.toNat) :
    replyReadBank bank record first = .badParam := by
  unfold replyReadBank
  rcases h with h | h
  · rw [recordIndex_of_le h]
  · rw [wordIndex_of_le h]
    cases recordIndex 12 record <;> rfl

/-- R5: the words of an entry of the Slot Map. -/
def entryWords : Option SlotEntry → List Word
  | none => [0, 0, 0]
  | some { slot := n, role := .input c } => [natWord n.val, 1, natWord c.val]
  | some { slot := n, role := .output a } => [natWord n.val, 2, natWord a.val]
  | some { slot := n, role := .status } => [natWord n.val, 3, 0]
  | some { slot := n, role := .control } => [natWord n.val, 4, 0]

theorem Device.replyReadSlotMap_entry (d : Device) {record : Byte} {i : Fin 64} (h : record.toNat = i.val) :
    d.replyReadSlotMap record = .data (entryWords d.slotMap.entries[i]) := by
  have h64 : record ≠ 64 := by
    rintro rfl
    exact absurd i.isLt (by rw [← h]; decide)
  unfold Device.replyReadSlotMap
  rw [if_neg h64, recordIndex_of_eq h]
  dsimp only
  cases d.slotMap.entries[i] with
  | none => rfl
  | some e =>
    obtain ⟨n, r⟩ := e
    cases r <;> rfl

theorem Device.replyReadSlotMap_beyond (d : Device) {record : Byte} (h : 64 < record.toNat) : d.replyReadSlotMap record = .badParam := by
  have h64 : record ≠ 64 := by
    rintro rfl
    exact absurd h (by decide)
  unfold Device.replyReadSlotMap
  rw [if_neg h64, recordIndex_of_le (by omega)]

theorem Device.replyReadChannel_part0 (d : Device) {record : Byte} {c : Fin 32} (h : record.toNat = c.val) :
    d.replyReadChannel record 0 = .data d.channels[c].scaleWords := by
  unfold Device.replyReadChannel
  rw [recordIndex_of_eq h]
  rfl

theorem Device.replyReadChannel_part1 (d : Device) {record : Byte} {c : Fin 32} (h : record.toNat = c.val) :
    d.replyReadChannel record 1 = .data d.channels[c].limitsWords := by
  unfold Device.replyReadChannel
  rw [recordIndex_of_eq h]
  rfl

theorem Device.replyReadChannel_beyond (d : Device) {record : Byte} {part : Word} (h : 32 ≤ record.toNat ∨ 1 < part.toNat) :
    d.replyReadChannel record part = .badParam := by
  unfold Device.replyReadChannel
  rcases h with h | h
  · rw [recordIndex_of_le h]
  · split
    any_goals omega
    rfl

theorem Device.replyReadChannelState_of_eq (d : Device) {record : Byte} {c : Fin 32} (h : record.toNat = c.val) :
    d.replyReadChannelState record = .data d.channels[c].stateWords := by
  unfold Device.replyReadChannelState
  rw [recordIndex_of_eq h]

theorem Device.replyReadChannelState_of_le (d : Device) {record : Byte} (h : 32 ≤ record.toNat) :
    d.replyReadChannelState record = .badParam := by
  unfold Device.replyReadChannelState
  rw [recordIndex_of_le h]

theorem Device.replyReadSpeedConfig_beyond (d : Device) {record : Byte} (h : 1 < record.toNat) : d.replyReadSpeedConfig record = .badParam := by
  unfold Device.replyReadSpeedConfig
  split
  any_goals omega
  rfl

/-- Settles O25, read by read. -/
theorem ringSpeedAndProfileReadsAnswer : Obligations.RingSpeedAndProfileReadsAnswer := by
  intro tag record part s hf d
  have slotMap : ∀ {rc ws}, d.replyReadSlotMap record = .answer rc ws → Answers (.readSlotMap tag record) s tag 4 rc ws :=
    fun h => answers_of (c := .readSlotMap record) rfl hf (by simp) rfl (.inr rfl) h
  have channel : ∀ {part rc ws}, d.replyReadChannel record part = .answer rc ws → Answers (.readChannel tag record part) s tag 4 rc ws :=
    fun h => answers_of (c := .readChannel record _) rfl hf (by simp) rfl (.inr rfl) h
  have channelState : ∀ {rc ws}, d.replyReadChannelState record = .answer rc ws → Answers (.readChannelState tag record) s tag 4 rc ws :=
    fun h => answers_of (c := .readChannelState record) rfl hf (by simp) rfl (.inr rfl) h
  have speed : ∀ {rc ws}, d.replyReadSpeedConfig record = .answer rc ws → Answers (.readSpeedConfig tag record) s tag 4 rc ws :=
    fun h => answers_of (c := .readSpeedConfig record) rfl hf (by simp) rfl (.inr rfl) h
  have shadow : ∀ {rc ws}, replyReadBank d.profile.shadow record part = .answer rc ws →
      Answers (.readProfileShadow tag record part) s tag 4 rc ws :=
    fun h => answers_of (c := .readProfileShadow record part) rfl hf (by simp) rfl (.inr rfl) h
  have active : ∀ {rc ws}, replyReadBank d.profile.active record part = .answer rc ws →
      Answers (.readProfileActive tag record part) s tag 4 rc ws :=
    fun h => answers_of (c := .readProfileActive record part) rfl hf (by simp) rfl (.inr rfl) h
  refine ⟨fun i hi => ?_, fun h => slotMap (if_pos (BitVec.eq_of_toNat_eq h)), fun h => slotMap (d.replyReadSlotMap_beyond h),
    fun c hc => ⟨fun h => ?_, fun h => ?_, fun h => channel (d.replyReadChannel_beyond (.inr h)),
      channelState (d.replyReadChannelState_of_eq hc)⟩,
    fun h => ⟨channel (d.replyReadChannel_beyond (.inl h)), channelState (d.replyReadChannelState_of_le h)⟩,
    fun h => speed (by rw [h]; rfl), fun h => speed (by rw [h]; rfl), fun h => speed (d.replyReadSpeedConfig_beyond h),
    fun c i hc hi => ⟨shadow ?_, active ?_⟩, fun h => ⟨shadow (replyReadBank_of_le _ h), active (replyReadBank_of_le _ h)⟩⟩
  · have h := slotMap (d.replyReadSlotMap_entry hi)
    unfold entryWords at h
    exact h
  · exact h ▸ channel (d.replyReadChannel_part0 hc)
  · subst h
    rw [← enables_word]
    exact channel (d.replyReadChannel_part1 hc)
  · exact (replyReadBank_of_eq _ hc hi).trans (congrArg Reply.data (Curve.words_eq _ _))
  · exact (replyReadBank_of_eq _ hc hi).trans (congrArg Reply.data (Curve.words_eq _ _))

/-! ## The writes of the Slot Map -/

/-- R5: the role kinds that a write can name. -/
theorem Role.ofCodes_none {kind index : Word} (h0 : kind ≠ 0)
    (h : 4 < kind.toNat ∨ (kind = 1 ∧ 32 ≤ index.toNat) ∨ (kind = 2 ∧ 16 ≤ index.toNat)) : Role.ofCodes kind index = none := by
  have hk : kind.toNat ≠ 0 := fun h => h0 (BitVec.eq_of_toNat_eq h)
  unfold Role.ofCodes
  rcases h with h | ⟨rfl, h⟩ | ⟨rfl, h⟩
  · split
    any_goals omega
    rfl
  · show (wordIndex 32 index).map _ = _
    rw [wordIndex_of_le h]
    rfl
  · show (wordIndex 16 index).map _ = _
    rw [wordIndex_of_le h]
    rfl

theorem Role.ofCodes_some {kind index : Word} {r : Role}
    (h : (∃ c : Fin 32, kind = 1 ∧ index.toNat = c.val ∧ r = .input c) ∨ (∃ a : Fin 16, kind = 2 ∧ index.toNat = a.val ∧ r = .output a)
      ∨ (kind = 3 ∧ r = .status) ∨ (kind = 4 ∧ r = .control)) : kind ≠ 0 ∧ Role.ofCodes kind index = some r := by
  rcases h with ⟨c, rfl, hi, rfl⟩ | ⟨a, rfl, hi, rfl⟩ | ⟨rfl, rfl⟩ | ⟨rfl, rfl⟩
  · refine ⟨by decide, ?_⟩
    show (wordIndex 32 index).map _ = _
    rw [wordIndex_of_eq hi]
    rfl
  · refine ⟨by decide, ?_⟩
    show (wordIndex 16 index).map _ = _
    rw [wordIndex_of_eq hi]
    rfl
  · exact ⟨by decide, rfl⟩
  · exact ⟨by decide, rfl⟩

/-- R4: another entry holds the slot or the role. -/
theorem SlotMap.conflicts_iff (m : SlotMap) (i : Fin 64) (e : SlotEntry) : m.conflicts i e = true ↔
    ∃ (j : Fin 64) (x : SlotEntry), j ≠ i ∧ m.entries[j] = some x ∧ (x.slot = e.slot ∨ x.role = e.role) := by
  simp only [SlotMap.conflicts, List.any_eq_true, List.mem_finRange, true_and, Bool.and_eq_true, bne_iff_ne, Option.any_eq_true,
    Bool.or_eq_true, beq_iff_eq]
  constructor
  · rintro ⟨j, hj, x, hx, h⟩
    exact ⟨j, x, hj, hx, h⟩
  · rintro ⟨j, x, hj, hx, h⟩
    exact ⟨j, hj, x, hx, h⟩

/-- R5: a write on an entry while the part is UNCONFIGURED. -/
theorem Device.replyWriteSlotMap_empty {d : Device} (hr : d.mailbox.ready = false) {record : Byte} {i : Fin 64} (h : record.toNat = i.val)
    (slot index : Word) : d.replyWriteSlotMap record slot 0 index = .store (d.setEntry i none) [] := by
  have h64 : record ≠ 64 := by
    rintro rfl
    exact absurd i.isLt (by rw [← h]; decide)
  simp only [Device.replyWriteSlotMap, h64, hr, recordIndex_of_eq h, if_false, if_true, Bool.false_eq_true]

theorem Device.replyWriteSlotMap_bound {d : Device} (hr : d.mailbox.ready = false) {record : Byte} {i : Fin 64} (h : record.toNat = i.val)
    {slot kind index : Word} (h0 : kind ≠ 0) {e : SlotEntry} (hs : wordIndex 128 slot = some e.slot)
    (hrole : Role.ofCodes kind index = some e.role) : d.replyWriteSlotMap record slot kind index =
      if d.slotMap.conflicts i e then .badParam else .store (d.setEntry i (some e)) [] := by
  have h64 : record ≠ 64 := by
    rintro rfl
    exact absurd i.isLt (by rw [← h]; decide)
  simp only [Device.replyWriteSlotMap, h64, hr, recordIndex_of_eq h, h0, hs, hrole, if_false, Bool.false_eq_true]

theorem Device.replyWriteSlotMap_invalid {d : Device} (hr : d.mailbox.ready = false) {record : Byte} {i : Fin 64} (h : record.toNat = i.val)
    {slot kind index : Word} (h0 : kind ≠ 0) (hn : wordIndex 128 slot = none ∨ Role.ofCodes kind index = none) :
    d.replyWriteSlotMap record slot kind index = .badParam := by
  have h64 : record ≠ 64 := by
    rintro rfl
    exact absurd i.isLt (by rw [← h]; decide)
  simp only [Device.replyWriteSlotMap, h64, hr, recordIndex_of_eq h, h0, if_false, Bool.false_eq_true]
  rcases hn with hn | hn
  · simp only [hn]
  · rw [hn]
    cases wordIndex 128 slot <;> rfl

theorem Device.replyWriteSlotMap_beyond {d : Device} (hr : d.mailbox.ready = false) {record : Byte} (h : 64 < record.toNat)
    (slot kind index : Word) : d.replyWriteSlotMap record slot kind index = .badParam := by
  have h64 : record ≠ 64 := by
    rintro rfl
    exact absurd h (by decide)
  unfold Device.replyWriteSlotMap
  rw [if_neg h64, if_neg (by simp [hr]), recordIndex_of_le (by omega)]

theorem inRange_unsigned (lo hi : Nat) (w : Word) : inRange lo hi (unsigned w) = true ↔ lo ≤ w.toNat ∧ w.toNat ≤ hi := by
  rw [inRange, Bool.and_eq_true, decide_eq_true_iff, decide_eq_true_iff, unsigned]
  omega

/-- R6: the ranges of the link record. -/
theorem linkRecord_inRange (t b : Word) : (inRange 1 255 (unsigned t) && inRange 1 15 (unsigned b)) = true ↔
    1 ≤ t.toNat ∧ t.toNat ≤ 255 ∧ 1 ≤ b.toNat ∧ b.toNat ≤ 15 := by
  rw [Bool.and_eq_true]
  exact (and_congr (inRange_unsigned 1 255 t) (inRange_unsigned 1 15 b)).trans and_assoc

/-- Settles O26, refusal by refusal in the order of the rule. -/
theorem slotMapWritesKeepTheMapConsistent : Obligations.SlotMapWritesKeepTheMapConsistent := by
  intro tag record slot kind index s hf h64 d map writes linkWrite
  have answers : ∀ {rc ws}, d.replyWriteSlotMap record slot kind index = .answer rc ws → Answers writes s tag 3 rc ws :=
    fun h => answers_of (c := .writeSlotMap record slot kind index) rfl hf (by simp) rfl (.inr rfl) h
  have leaves : ∀ {d' ws}, d.replyWriteSlotMap record slot kind index = .store d' ws → Leaves writes s tag 3 d' ws :=
    fun h => leaves_of (c := .writeSlotMap record slot kind index) rfl hf (by simp) rfl (.inr rfl) h
  have linkAnswers : ∀ {rc ws}, d.replyWriteLinkRecord slot kind = .answer rc ws → Answers linkWrite s tag 3 rc ws :=
    fun h => answers_of (c := .writeSlotMap 64 slot kind 0) rfl hf (by simp) rfl (.inr rfl) h
  have linkLeaves : ∀ {d' ws}, d.replyWriteLinkRecord slot kind = .store d' ws → Leaves linkWrite s tag 3 d' ws :=
    fun h => leaves_of (c := .writeSlotMap 64 slot kind 0) rfl hf (by simp) rfl (.inr rfl) h
  refine ⟨fun hr => ⟨answers ?_, linkAnswers (if_pos hr)⟩, fun hr => ⟨fun h => answers (d.replyWriteSlotMap_beyond hr h _ _ _),
    fun i hi => ⟨fun h0 => leaves ?_, fun h0 h => answers ?_, fun e hs hrole => ?_⟩, fun h => linkLeaves ?_, fun h => linkAnswers ?_⟩⟩
  · unfold Device.replyWriteSlotMap
    rw [if_neg h64, if_pos hr]
    rfl
  · rw [h0]
    exact d.replyWriteSlotMap_empty hr hi slot index
  · exact d.replyWriteSlotMap_invalid hr hi h0 (h.imp wordIndex_of_le (Role.ofCodes_none h0))
  · obtain ⟨h0, hcodes⟩ := Role.ofCodes_some hrole
    have hreply := d.replyWriteSlotMap_bound hr hi h0 (wordIndex_of_eq hs) hcodes
    intro taken
    refine ⟨fun h => answers ?_, fun h => leaves ?_⟩
    · rw [hreply, if_pos ((d.slotMap.conflicts_iff i e).mpr h)]
      rfl
    · rw [hreply, if_neg (by rwa [d.slotMap.conflicts_iff i e])]
      rfl
  · unfold Device.replyWriteLinkRecord
    rw [if_neg (by simp [hr]), if_pos ((linkRecord_inRange slot kind).mpr h)]
  · unfold Device.replyWriteLinkRecord
    rw [if_neg (by simp [hr]), if_neg (by rwa [linkRecord_inRange])]
    rfl

end Sys2Proof.Machine

/-! Which event is taken next: some waiting event need wait for no other, so every event is taken in its turn. -/

namespace Sys2Proof.Machine

/-! ## The groups of blocks, in the order in which the rules let them be taken -/

/-- The block's events wait for nothing but the zones' reaction to a break. -/
def Block.prompt : Block → Bool
  | .ring | .channels | .channel _ | .timerEdge _ | .timerClock _ | .terms | .monitorHard | .capture _ | .control | .breakWord | .line | .permit => true
  | _ => false

/-- The zone of a block that is a zone's. -/
def Block.zone : Block → Option (Fin 12)
  | .zoneValidity z | .zoneDemand z | .zoneTick z | .zoneArrival z => some z
  | _ => none

/-- The event belongs to a zone, to the Monitor or to the Mailbox: no part of the device that a zone waits for moves by it. -/
def Block.late (b : Block) : Bool :=
  b.zone.isSome || match b with
    | .monitorSoft | .monitorTick | .command => true
    | _ => false

theorem Block.groups (b : Block) : b = .zoneBreak ∨ b.prompt = true ∨ b = .speed ∨ b = .recording ∨ b.late = true := by
  cases b <;> simp [Block.prompt, Block.late, Block.zone]

theorem Job.ofChannel_of_late {j : Job} (h : j.block.late = true ∨ j.block = .speed ∨ j.block = .recording) : j.ofChannel = false := by
  cases j
  case channelTick | channelSample | channelChange => rcases h with h | h | h <;> cases h
  all_goals rfl

theorem Job.ofTracker_of_late {j : Job} (h : j.block.late = true ∨ j.block = .recording) : j.ofTracker = false := by
  cases j
  case speedLoss | speedSample => rcases h with h | h <;> cases h
  all_goals rfl

theorem Job.block_of_softRise {j : Job} (h : j.isSoftRise = true) : j.block = .monitorSoft := by
  cases j
  case softRise => rfl
  all_goals cases h

/-! ## What must wait for what -/

/-- R16, R107, R119, R175: a command waits for every event but the clocks and the recording of its completion. -/
def Job.holdsCommand : Job → Bool
  | .timerClock _ source => source == .cascade
  | .captureRecord _ | .command => false
  | _ => true

/-- While no zone has to react to a break, the orders of the rules are those of the event that waits. -/
theorem Job.precedes_of_noBreak {a : Job} (ha : a ≠ .zonesBreak) (d : Device) (b : Job) : a.precedes d b = match b with
    | .monitorTick => a == .softFall
    | .speedSample => a.ofChannel
    | .captureRecord _ => a.ofChannel || a.ofTracker
    | .zoneArrival y => a.ofChannel || a.ofTracker || a.block == .zoneValidity y
    | .command => a.holdsCommand
    | _ => false := by
  unfold Job.precedes
  rw [beq_eq_false_iff_ne.mpr ha, Bool.false_and, Bool.false_or]
  cases b
  case zoneArrival y =>
    cases a
    case zoneValidity z v =>
      show (false || false || z == y) = (false || false || Block.zoneValidity z == .zoneValidity y)
      congr 1
      by_cases h : z = y <;> simp [h]
    all_goals rfl
  case command => cases a <;> rfl
  all_goals rfl

theorem Device.lowerDemandMoves_self (d : Device) (y : Fin 12) : d.lowerDemandMoves d y = false := by
  simp [Device.lowerDemandMoves]

/-- R103: while only zones, the Monitor and the Mailbox have events waiting, an event at the lowest of these zones waits for no lower one. -/
theorem Job.waitsForLowerZone_lowest {d : Device} {ws : List Job} {b : Job} {z : Fin 12} (hws : ∀ a ∈ ws, a.block.late = true)
    (hb : b.block.zone = some z) (hlow : ∀ a ∈ ws, ∀ y, a.block.zone = some y → z ≤ y) : b.waitsForLowerZone d ws = false := by
  have zoneOf : ∀ {a : Job} {y}, a.zoneEvent d ws = some y → a.block.zone = some y := fun {a y} h => by
    cases a <;> simp only [Job.zoneEvent] at h
    case zoneValidity => exact h
    case zoneTick | zoneDemand | zoneArrival =>
      split at h
      · exact h
      · cases h
    all_goals cases h
  have part : ∀ a : Job, a.block.late = true → d.takePart a = d ∧ a.movesValidity d = none := fun a ha => by
    cases a
    case zoneValidity | zoneDemand | zoneTick | zoneArrival | hardRise | softRise | softFall | monitorTick | command => exact ⟨rfl, rfl⟩
    all_goals cases ha
  have hbreak : ws.contains .zonesBreak = false := by
    rw [Bool.eq_false_iff]
    intro h
    have := hws _ (List.contains_iff_mem.mp h)
    cases this
  have hfold : ws.foldl Device.takePart d = d := by
    clear hlow hbreak zoneOf
    induction ws with
    | nil => rfl
    | cons a ws ih =>
      rw [List.foldl_cons, (part a (hws a List.mem_cons_self)).1]
      exact ih fun x hx => hws x (List.mem_cons_of_mem _ hx)
  unfold Job.waitsForLowerZone
  split
  · rfl
  · next y hy =>
    have hyz : y = z := Option.some.inj ((zoneOf hy).symm.trans hb)
    subst hyz
    simp only [hbreak, Bool.false_eq_true, if_false, hfold, Device.lowerDemandMoves_self, Bool.or_false, List.any_eq_false]
    intro a ha
    obtain ⟨hpart, hvalid⟩ := part a (hws a ha)
    rw [hpart, hvalid, Device.lowerDemandMoves_self]
    cases hza : a.zoneEvent d ws with
    | none => simp
    | some x => simpa using hlow a ha x (zoneOf hza)

/-- R138: events of the Monitor other than a hard rise, and commands, bring no rise of the hard level. -/
theorem Cascades.bringHardRise_none (n : Nat) (c : Cascades)
    (h : ∀ x ∈ c.items, x.job.isHardRise = false ∧ (x.job.ofMonitor = true ∨ x.job = .command)) : c.bringHardRise n = false := by
  induction n generalizing c with
  | zero => rfl
  | succ n ih =>
    have hxs : ∀ x ∈ c.items.filter fun x => !x.job.ofMonitor, x.job = .command := fun x hx => by
      obtain ⟨hx, hm⟩ := List.mem_filter.mp hx
      exact (h x hx).2.resolve_left (by simpa using hm)
    have hany : (c.items.any fun x => x.job.isHardRise) = false := List.any_eq_false.mpr fun x hx => by simp [(h x hx).1]
    have hstep : ∀ x ∈ c.items.filter fun x => !x.job.ofMonitor,
        (c.next id x ((c.items.filter fun x => !x.job.ofMonitor).erase x) c.dev).bringHardRise n = false := fun x hx => by
      refine ih _ fun y hy => ?_
      unfold Cascades.next at hy
      rw [if_pos (hxs x hx)] at hy
      have hy' := hxs y (List.mem_of_mem_erase hy)
      exact ⟨by rw [hy']; rfl, .inr hy'⟩
    unfold Cascades.bringHardRise
    rw [hany, Bool.false_or]
    refine List.any_eq_false.mpr fun x hx => ?_
    split at hx
    · next y hy =>
      rw [List.mem_singleton.mp hx, hstep y (List.mem_of_find?_eq_some hy)]
      simp
    · rw [hstep x (mem_of_mem_blockHeads hx)]
      simp

/-! ## Some waiting event need not wait -/

/-- The heads of the blocks of a group that waits for nothing. -/
theorem Cascades.ready_of_group {c : Cascades} {p : Block → Bool} {x : Item} (hx : x ∈ c.items) (hp : p x.job.block = true)
    (h : ∀ y ∈ c.items, p y.job.block = true → c.mustWait y = false) : ∃ y ∈ blockHeads c.items, c.mustWait y = false := by
  obtain ⟨y, hy, hb⟩ := exists_blockHead hx
  exact ⟨y, hy, h y (mem_of_mem_blockHeads hy) (by rw [hb, hp])⟩

theorem Cascades.mustWait_false {c : Cascades} {y : Item} (hp : ∀ a ∈ c.items, a.job.precedes c.dev y.job = false)
    (hz : y.job.waitsForLowerZone c.dev (c.items.map Item.job) = false) (hs : y.job.isSoftRise = true → c.eventRaisesHard y = false) :
    c.mustWait y = false := by
  have hany : (c.items.map Item.job).any (fun a => a.precedes c.dev y.job) = false := by
    simpa [List.any_eq_false] using hp
  unfold Cascades.mustWait Job.mustWait
  rw [hany, hz]
  cases h : y.job.isSoftRise with
  | false => rfl
  | true => simp [hs h]

/-- An event that is none of a zone's waits for no lower zone. -/
theorem Job.waitsForLowerZone_other {d : Device} {ws : List Job} {b : Job} (h : b.block.zone = none) : b.waitsForLowerZone d ws = false := by
  have hz : b.zoneEvent d ws = none := by
    cases b
    case zoneValidity | zoneDemand | zoneTick | zoneArrival => cases h
    all_goals rfl
  unfold Job.waitsForLowerZone
  rw [hz]

/-- Among events of the zones, the Monitor and the Mailbox: those of the lowest zone, the validity of its channel first. -/
theorem Cascades.ready_of_zone {c : Cascades} (hlate : ∀ a ∈ c.items, a.job.block.late = true)
    (h : ∃ x ∈ c.items, x.job.block.zone.isSome = true) : ∃ y ∈ blockHeads c.items, c.mustWait y = false := by
  obtain ⟨x0, hx0, h0⟩ := h
  obtain ⟨z, ⟨x, hx, hxz⟩, hmin⟩ := WellFounded.has_min (wellFounded_lt (α := Fin 12)) { z | ∃ x ∈ c.items, x.job.block.zone = some z }
    ⟨_, x0, hx0, (Option.some_get h0).symm⟩
  have hlow : ∀ a ∈ c.items.map Item.job, ∀ y, a.block.zone = some y → z ≤ y := fun a ha y hy => by
    obtain ⟨i, hi, rfl⟩ := List.mem_map.mp ha
    exact not_lt.mp (hmin y ⟨i, hi, hy⟩)
  have hjobs : ∀ a ∈ c.items.map Item.job, a.block.late = true := fun a ha => by
    obtain ⟨i, hi, rfl⟩ := List.mem_map.mp ha
    exact hlate i hi
  have hnb : ∀ a ∈ c.items, a.job ≠ .zonesBreak := fun a ha h => by
    have := hlate a ha
    rw [h] at this
    cases this
  have hcalm : ∀ a ∈ c.items, a.job.ofChannel = false ∧ a.job.ofTracker = false := fun a ha =>
    ⟨Job.ofChannel_of_late (.inl (hlate a ha)), Job.ofTracker_of_late (.inl (hlate a ha))⟩
  have ready : ∀ y ∈ c.items, y.job.block.zone = some z →
      ((∃ v, y.job.block = .zoneValidity v) ∨ ∀ a ∈ c.items, a.job.block ≠ .zoneValidity z) → c.mustWait y = false := by
    intro y hy hz hv
    refine Cascades.mustWait_false (fun a ha => ?_) (Job.waitsForLowerZone_lowest hjobs hz hlow) (fun hs => ?_)
    · rw [Job.precedes_of_noBreak (hnb a ha)]
      cases h : y.job <;> rw [h] at hz hv <;> try rfl
      case zoneArrival z' =>
        cases hz
        rcases hv with ⟨v, hv⟩ | hv
        · cases hv
        · simp [hcalm a ha, hv a ha]
      all_goals cases hz
    · rw [Job.block_of_softRise hs] at hz
      cases hz
  by_cases hv : ∃ x ∈ c.items, x.job.block = .zoneValidity z
  · obtain ⟨x, hx, hj⟩ := hv
    refine Cascades.ready_of_group (p := (· == .zoneValidity z)) hx (by simp [hj]) fun y hy hb => ?_
    have hb := beq_iff_eq.mp hb
    exact ready y hy (by rw [hb]; rfl) (.inl ⟨z, hb⟩)
  · refine Cascades.ready_of_group (p := (· == x.job.block)) hx (by simp) fun y hy hb => ?_
    exact ready y hy (by rw [beq_iff_eq.mp hb, hxz]) (.inr fun a ha h => hv ⟨a, ha, h⟩)

/-- Among events of the Monitor and the Mailbox: the soft level, the tick, the command. -/
theorem Cascades.ready_of_monitor {c : Cascades} (hc : c.items ≠ [])
    (h : ∀ a ∈ c.items, a.job.block = .monitorSoft ∨ a.job.block = .monitorTick ∨ a.job.block = .command) :
    ∃ y ∈ blockHeads c.items, c.mustWait y = false := by
  have hnb : ∀ a ∈ c.items, a.job ≠ .zonesBreak := fun a ha h' => by
    rcases h a ha with h | h | h <;> rw [h'] at h <;> cases h
  have hjob : ∀ a ∈ c.items, a.job.isHardRise = false ∧ (a.job.ofMonitor = true ∨ a.job = .command) := fun a ha => by
    rcases h a ha with h | h | h <;> cases hj : a.job <;> rw [hj] at h <;> first | exact ⟨rfl, .inl rfl⟩ | exact ⟨rfl, .inr rfl⟩ | cases h
  have hzone : ∀ a ∈ c.items, a.job.block.zone = none := fun a ha => by
    rcases h a ha with h | h | h <;> rw [h] <;> rfl
  by_cases hsoft : ∃ x ∈ c.items, x.job.block = .monitorSoft
  · obtain ⟨x, hx, hj⟩ := hsoft
    refine Cascades.ready_of_group (p := (· == .monitorSoft)) hx (by simp [hj]) fun y hy hb => ?_
    refine Cascades.mustWait_false (fun a ha => ?_) (Job.waitsForLowerZone_other (hzone y hy)) (fun hs => ?_)
    · rw [Job.precedes_of_noBreak (hnb a ha)]
      cases h : y.job <;> rw [h] at hb <;> first | rfl | cases hb
    · exact Cascades.bringHardRise_none _ _ fun a ha => hjob a (List.mem_of_mem_filter ha)
  have hns : ∀ a ∈ c.items, a.job.block = .monitorTick ∨ a.job.block = .command := fun a ha =>
    (h a ha).resolve_left fun h => hsoft ⟨a, ha, h⟩
  obtain ⟨x0, hx0⟩ := List.exists_mem_of_ne_nil _ hc
  by_cases htick : ∃ x ∈ c.items, x.job = .monitorTick
  · obtain ⟨x, hx, hj⟩ := htick
    refine Cascades.ready_of_group (p := (· == .monitorTick)) hx (by rw [hj]; rfl) fun y hy hb => ?_
    have hy' : y.job = .monitorTick := by
      cases h : y.job <;> rw [h] at hb <;> first | rfl | cases hb
    refine Cascades.mustWait_false (fun a ha => ?_) (Job.waitsForLowerZone_other (hzone y hy)) (fun hs => by rw [hy'] at hs; cases hs)
    rw [Job.precedes_of_noBreak (hnb a ha), hy']
    exact beq_eq_false_iff_ne.mpr fun h' => by rcases hns a ha with h | h <;> rw [h'] at h <;> cases h
  · have hcommand : ∀ a ∈ c.items, a.job = .command := fun a ha => by
      rcases hns a ha with h | h <;> cases hj : a.job <;> rw [hj] at h <;> first | rfl | cases h
      exact absurd ⟨a, ha, hj⟩ htick
    refine Cascades.ready_of_group (p := fun _ => true) hx0 rfl fun y hy _ => ?_
    refine Cascades.mustWait_false (fun a ha => ?_) (Job.waitsForLowerZone_other (hzone y hy)) (fun hs => by rw [hcommand y hy] at hs; cases hs)
    rw [Job.precedes_of_noBreak (hnb a ha), hcommand y hy, hcommand a ha]
    rfl

/-- NO DEADLOCK: among the events that wait, the first one of some block need wait for no other. -/
theorem Cascades.exists_ready {c : Cascades} (hc : c.items ≠ []) : ∃ y ∈ blockHeads c.items, c.mustWait y = false := by
  by_cases hbreak : ∃ x ∈ c.items, x.job = .zonesBreak
  · obtain ⟨x, hx, hj⟩ := hbreak
    refine Cascades.ready_of_group (p := (· == .zoneBreak)) hx (by rw [hj]; rfl) fun y hy hb => ?_
    have hy' : y.job = .zonesBreak := by
      cases h : y.job <;> rw [h] at hb <;> first | rfl | cases hb
    refine Cascades.mustWait_false (fun a _ => ?_) (Job.waitsForLowerZone_other (by rw [hy']; rfl)) (by rw [hy']; simp [Job.isSoftRise])
    rw [hy']
    simp [Job.precedes, Job.besideBreak]
  have hnb : ∀ a ∈ c.items, a.job ≠ .zonesBreak := fun a ha h => hbreak ⟨a, ha, h⟩
  have precedes : ∀ a ∈ c.items, ∀ b, _ := fun a ha => Job.precedes_of_noBreak (hnb a ha) c.dev
  by_cases hprompt : ∃ x ∈ c.items, x.job.block.prompt = true
  · obtain ⟨x, hx, hj⟩ := hprompt
    refine Cascades.ready_of_group hx hj fun y hy hb => ?_
    refine Cascades.mustWait_false (fun a ha => ?_) (Job.waitsForLowerZone_other ?_) (fun hs => ?_)
    · rw [precedes a ha]
      cases h : y.job <;> rw [h] at hb <;> first | rfl | cases hb
    · cases h : y.job <;> rw [h] at hb <;> first | rfl | cases hb
    · rw [Job.block_of_softRise hs] at hb
      cases hb
  have hnp : ∀ a ∈ c.items, a.job.block = .speed ∨ a.job.block = .recording ∨ a.job.block.late = true := fun a ha => by
    rcases a.job.block.groups with h | h | h
    · exact absurd (by cases hj : a.job <;> rw [hj] at h <;> first | rfl | cases h) (hnb a ha)
    · exact absurd ⟨a, ha, h⟩ hprompt
    · exact h
  have hnc : ∀ a ∈ c.items, a.job.ofChannel = false := fun a ha => Job.ofChannel_of_late (by have := hnp a ha; tauto)
  by_cases hspeed : ∃ x ∈ c.items, x.job.block = .speed
  · obtain ⟨x, hx, hj⟩ := hspeed
    refine Cascades.ready_of_group (p := (· == .speed)) hx (by rw [hj]; rfl) fun y hy hb => ?_
    refine Cascades.mustWait_false (fun a ha => ?_) (Job.waitsForLowerZone_other ?_) (fun hs => ?_)
    · rw [precedes a ha]
      cases h : y.job <;> rw [h] at hb <;> first | rfl | exact hnc a ha | cases hb
    · cases h : y.job <;> rw [h] at hb <;> first | rfl | cases hb
    · rw [Job.block_of_softRise hs] at hb
      cases hb
  have hnt : ∀ a ∈ c.items, a.job.ofTracker = false := fun a ha => Job.ofTracker_of_late (by
    have := hnp a ha
    have : a.job.block ≠ .speed := fun h => hspeed ⟨a, ha, h⟩
    tauto)
  by_cases hrecord : ∃ x ∈ c.items, x.job.block = .recording
  · obtain ⟨x, hx, hj⟩ := hrecord
    refine Cascades.ready_of_group (p := (· == .recording)) hx (by rw [hj]; rfl) fun y hy hb => ?_
    refine Cascades.mustWait_false (fun a ha => ?_) (Job.waitsForLowerZone_other ?_) (fun hs => ?_)
    · rw [precedes a ha]
      cases h : y.job <;> rw [h] at hb <;> first | exact Bool.or_eq_false_iff.mpr ⟨hnc a ha, hnt a ha⟩ | cases hb
    · cases h : y.job <;> rw [h] at hb <;> first | rfl | cases hb
    · rw [Job.block_of_softRise hs] at hb
      cases hb
  have hlate : ∀ a ∈ c.items, a.job.block.late = true := fun a ha => by
    have := hnp a ha
    have : a.job.block ≠ .speed := fun h => hspeed ⟨a, ha, h⟩
    have : a.job.block ≠ .recording := fun h => hrecord ⟨a, ha, h⟩
    tauto
  by_cases hzone : ∃ x ∈ c.items, x.job.block.zone.isSome = true
  · exact Cascades.ready_of_zone hlate hzone
  · refine Cascades.ready_of_monitor hc fun a ha => ?_
    have hz : a.job.block.zone.isSome = false := Bool.eq_false_iff.mpr fun h => hzone ⟨a, ha, h⟩
    have hl := hlate a ha
    cases hb : a.job.block <;> rw [hb] at hz hl <;> tauto

end Sys2Proof.Machine

/-! Following the waiting events: an invariant over the device and the events that still wait, each event taken in its turn. -/

namespace Sys2Proof.Machine

/-- The event is taken in its turn: it is quiet, or need wait for none of the events that wait with it. -/
def Job.InTurn (d : Device) (ws : List Job) (j : Job) : Prop :=
  ∃ o, j.quiet { d with choices := o } = true ∨ ∃ xs : List Job, xs.Perm (j :: ws) ∧ j.mustWait { d with choices := o } xs = false

theorem Device.quietClock_choices (d : Device) (o : Choices) (k : Fin 6) (source : ClockSource) :
    ({ d with choices := o } : Device).quietClock k source = d.quietClock k source := by
  by_cases h : d.timers[k].clock ≠ source ∨ d.level d.timers[k].hold = true
  · have h' : ({ d with choices := o } : Device).clockTimer k source = ({ d with choices := o }, false) := if_pos h
    have h'' : d.clockTimer k source = (d, false) := if_pos h
    simp only [Device.quietClock, h', h'']
  · have h' : ({ d with choices := o } : Device).clockTimer k source =
        (({ d with choices := o } : Device).setTimer k d.timers[k].takeClock.1, d.timers[k].takeClock.2) := if_neg h
    have h'' : d.clockTimer k source = (d.setTimer k d.timers[k].takeClock.1, d.timers[k].takeClock.2) := if_neg h
    simp only [Device.quietClock, h', h'', Device.setTimer_timers]

theorem Job.quiet_choices (d : Device) (o : Choices) (j : Job) : j.quiet { d with choices := o } = j.quiet d := by
  cases j
  case timerClock k source =>
    unfold Job.quiet Job.inert
    dsimp only
    rw [d.quietClock_choices o]
  all_goals rfl

/-- An event that is not quiet is taken before those that the rules put before it. -/
theorem Job.InTurn.precedes {d : Device} {ws : List Job} {j : Job} (h : j.InTurn d ws) :
    j.quiet d = true ∨ ∀ a ∈ ws, a.precedes d j = false := by
  obtain ⟨o, h | ⟨xs, hp, h⟩⟩ := h
  · exact .inl (by rwa [Job.quiet_choices] at h)
  · refine .inr fun a ha => ?_
    unfold Job.mustWait at h
    have := List.any_eq_false.mp (Bool.or_eq_false_iff.mp h).1 a (hp.mem_iff.mpr (List.mem_cons_of_mem _ ha))
    exact Bool.eq_false_iff.mpr this

/-- Every event is taken in its turn. -/
theorem pickNext_inTurn {c : Cascades} {x : Item} {rest : List Item} {d : Device} (h : pickNext c = some (x, rest, d)) :
    x.job.InTurn d (rest.map Item.job) := by
  have hd : ∃ o, c.dev = { d with choices := o } := by
    rcases (pickNext_cases h).2.2 with rfl | ⟨n, rfl⟩
    · exact ⟨c.dev.choices, rfl⟩
    · obtain ⟨o, ho⟩ := c.dev.choose_dev n
      exact ⟨c.dev.choices, by rw [ho]⟩
  obtain ⟨o, ho⟩ := hd
  have hperm := pickNext_perm h
  refine ⟨o, ?_⟩
  rw [← ho]
  have quiet_of_inert : x.job.inert c.dev = true → x.job.quiet c.dev = true := fun hi => by simp [Job.quiet, hi]
  rcases pickNext_ordered h with hi | hq | hw | hall
  · exact .inl (quiet_of_inert hi)
  · exact .inl (hq x (hperm.mem_iff.mp List.mem_cons_self))
  · exact .inr ⟨c.items.map Item.job, (hperm.map Item.job).symm, (Bool.or_eq_false_iff.mp hw).1⟩
  · have hne : c.items ≠ [] := fun h0 => by rw [h0] at hperm; exact absurd hperm.length_eq (by simp)
    obtain ⟨y, hy, hyw⟩ := Cascades.exists_ready hne
    rw [hall y hy] at hyw
    cases hyw

/-! ## What joins the waiting events -/

theorem directItems_jobs (origin cascade fresh life : Nat) (b : Bool) (js : List Job) :
    (directItems origin cascade fresh life b js).map Item.job = js := by
  unfold directItems
  split
  · rw [List.map_map]
    exact List.map_id _
  · rw [List.map_map]
    exact List.zipIdx_map_fst _ _

theorem termItems_jobs (origin cascade life : Nat) (js : List Job) : (termItems origin cascade life js).map Item.job = js := by
  unfold termItems
  rw [List.map_map]
  exact List.map_id _

theorem rootItems_jobs (js : List Job) : (rootItems js).map Item.job = js := by
  unfold rootItems
  rw [List.map_map]
  exact List.zipIdx_map_fst _ _

/-- In no cascade has a term changed yet. -/
def Cascades.Fresh (c : Cascades) : Prop := ∀ m ∈ c.masks, m = 0

/-- The terms that an effect itself changes, as far as they count within its cascade (log 5). -/
def Effect.mask (e : Effect) (d : Device) : TermSet := if e.counts then changedTerms d e.dev else 0

/-- While no term has changed in any cascade, the mask of an effect is its own; and no term has changed after it where none changes by it. -/
structure Cascades.KeepsMasks (c c' : Cascades) (d : Device) (e : Effect) (m : TermSet) : Prop where
  own : c.Fresh → m = e.mask d
  fresh : c.Fresh → (settle d e.dev m).2 = 0 → c'.Fresh

theorem settleAndDrop_mask (d0 d : Device) (m : TermSet) : (settleAndDrop d0 d m).mask = (settle d0 d m).2 := by
  unfold settleAndDrop
  generalize settle d0 d m = s
  dsimp only
  generalize (if (s.1.permitFails && (termEvents d0 s.1).length != 0) = true then s.1.choose ((termEvents d0 s.1).length + 1)
    else ((termEvents d0 s.1).length, s.1)) = r
  split <;> rfl

/-- One effect: the device settles, and exactly what the effect hands on joins the waiting events, each with one generation less. -/
theorem Cascades.take_jobs (c : Cascades) (origin id life : Nat) (b : Bool) (d : Device) (e : Effect) :
    ∃ m, c.KeepsMasks (c.take origin id life b d e) d e m ∧ (c.take origin id life b d e).dev = settled d e m
      ∧ ∃ new : List Item, (c.take origin id life b d e).items = c.items ++ new
        ∧ new.map Item.job = (if life = 0 then [] else handedOn d e m) ∧ ∀ x ∈ new, x.life + 1 = life := by
  refine ⟨c.masks.getD id 0 ||| e.mask d, ⟨fun hf => ?_, fun hf hs => ?_⟩, ?_⟩
  · have hget : c.masks.getD id 0 = 0#8 := by
      rw [List.getD_eq_getElem?_getD]
      cases h : c.masks[id]? with
      | none => rfl
      | some m => exact hf m (List.mem_of_getElem? h)
    rw [hget, BitVec.zero_or]
  · have hmask : (settleAndDrop d e.dev (c.masks.getD id 0 ||| e.mask d)).mask = 0 := (settleAndDrop_mask _ _ _).trans hs
    have hset : ∀ m ∈ c.masks.set id (settleAndDrop d e.dev (c.masks.getD id 0 ||| e.mask d)).mask, m = 0 := fun m hm => by
      rcases List.mem_or_eq_of_mem_set hm with hm | hm
      · exact hf m hm
      · rw [hm, hmask]
    intro m hm
    unfold Cascades.take Effect.mask at *
    dsimp only at hm
    split at hm
    · exact hset m hm
    · dsimp only at hm
      split at hm
      · exact hset m hm
      · rcases List.mem_append.mp hm with hm | hm
        · exact hset m hm
        · exact (List.mem_replicate.mp hm).2
  simp only [Cascades.take, handedOn, settled, leftToRaise, Effect.mask]
  generalize settleAndDrop d e.dev (c.masks.getD id 0 ||| (if e.counts then changedTerms d e.dev else 0)) = s
  cases life with
  | zero => exact ⟨rfl, [], (List.append_nil _).symm, rfl, by simp⟩
  | succ n =>
    refine ⟨rfl, _, List.append_assoc _ _ _, ?_, fun x hx => ?_⟩
    · rw [List.map_append, directItems_jobs, termItems_jobs, if_neg (Nat.succ_ne_zero n), List.append_assoc _ s.permit]
    · rcases List.mem_append.mp hx with h | h
      · rw [(mem_directItems h).2]
      · rw [(mem_termItems h).2]

/-- One event taken: the command acts alone; any other event settles and hands on. -/
theorem Cascades.next_jobs (c : Cascades) (command : Device → Device) (it : Item) (rest : List Item) (d : Device) :
    (it.job = .command ∧ (c.next command it rest d).dev = command d ∧ (c.next command it rest d).items = rest
        ∧ (c.next command it rest d).masks = c.masks)
      ∨ (it.job ≠ .command ∧ ∃ m, c.KeepsMasks (c.next command it rest d) d (act (rest.map Item.job) d it.job) m
          ∧ (c.next command it rest d).dev = settled d (act (rest.map Item.job) d it.job) m
          ∧ ∃ new : List Item, (c.next command it rest d).items = rest ++ new
            ∧ new.map Item.job = (if it.life = 0 then [] else handedOn d (act (rest.map Item.job) d it.job) m)
            ∧ ∀ x ∈ new, x.life + 1 = it.life) := by
  unfold Cascades.next
  by_cases h : it.job = .command
  · exact .inl ⟨h, by rw [if_pos h], by rw [if_pos h], by rw [if_pos h]⟩
  · rw [if_neg h]
    obtain ⟨m, ⟨hown, hfresh⟩, htake⟩ := Cascades.take_jobs ({ c with dev := d, items := rest } : Cascades) it.origin it.cascade it.life it.byTerm d
      (act (rest.map Item.job) d it.job)
    exact .inr ⟨h, m, ⟨hown, hfresh⟩, htake⟩

/-! ## Invariants over the device and the waiting events -/

/-- `R` relates the device to those waiting events that `tok` picks out, and to whether no term has changed in any cascade yet; `J` says which
events can wait, with how many generations to follow them. Taking any one event in its turn keeps `R`, where what it hands on joins the waiting
events. -/
structure FreshTracks (J : Job → Nat → Prop) (tok : Job → Bool) (command : Device → Device) (R : Bool → Device → List Job → Prop) : Prop where
  perm : ∀ {b d ts ts'}, ts.Perm ts' → R b d ts → R b d ts'
  choices : ∀ {b d ts} (o : Choices), R b d ts → R b { d with choices := o } ts
  act : ∀ {b ws d j n m}, J j n → j ≠ .command → (∀ w ∈ ws, w = .command ∨ ∃ n, J w n) → j.InTurn d ws → (b = true → m = (act ws d j).mask d) →
    R b d ((j :: ws).filter tok) →
    R (b && (settle d (Machine.act ws d j).dev m).2 == 0) (settled d (Machine.act ws d j) m)
      (ws.filter tok ++ if n = 0 then [] else (handedOn d (Machine.act ws d j) m).filter tok)
  handsOn : ∀ {b ws d j n m}, J j (n + 1) → j ≠ .command → (∀ w ∈ ws, w = .command ∨ ∃ n, J w n) → (b = true → m = (Machine.act ws d j).mask d) →
    R b d ((j :: ws).filter tok) → ∀ x ∈ handedOn d (Machine.act ws d j) m, J x n
  command : ∀ {b ws d n}, J .command n → (∀ w ∈ ws, w = .command ∨ ∃ n, J w n) → Job.command.InTurn d ws → R b d ((Job.command :: ws).filter tok) →
    R b (command d) (ws.filter tok)

/-- What the start has, the end has, with no event waiting any more. -/
theorem FreshTracks.runRoots {J : Job → Nat → Prop} {tok : Job → Bool} {command : Device → Device} {R : Bool → Device → List Job → Prop}
    (t : FreshTracks J tok command R) (d : Device) (roots : List Job) (hm : ∀ j ∈ roots, j.Modest) (hj : ∀ j ∈ roots, J j Config.generations)
    (h : R true d (roots.filter tok)) : ∃ b, R b (d.runRoots command roots) [] := by
  obtain ⟨c, ⟨-, b, -, hc⟩, hi, he⟩ := Device.runRoots_ends
    (Q := fun c => (∀ it ∈ c.items, J it.job it.life) ∧ ∃ b, (b = true → c.Fresh) ∧ R b c.dev ((c.items.map Item.job).filter tok))
    (command := command) d roots hm
    ⟨fun it hit => by obtain ⟨hjob, hlife⟩ := mem_rootItems hit; rw [hlife]; exact hj _ hjob, true,
      fun _ m hm => (List.mem_replicate.mp hm).2, by rw [rootItems_jobs]; exact h⟩
    (by
      intro c it rest d1 hQ _ hp
      obtain ⟨hJ, b, hfresh, hR⟩ := hQ
      have hperm := pickNext_perm hp
      have hit : J it.job it.life := hJ it (hperm.mem_iff.mp List.mem_cons_self)
      have hrest : ∀ x ∈ rest, J x.job x.life := fun x hx => hJ x (hperm.mem_iff.mp (List.mem_cons_of_mem _ hx))
      have hws : ∀ w ∈ rest.map Item.job, w = .command ∨ ∃ n, J w n := fun w hw => by
        obtain ⟨x, hx, rfl⟩ := List.mem_map.mp hw
        exact .inr ⟨_, hrest x hx⟩
      have hR1 : R b d1 ((it.job :: rest.map Item.job).filter tok) := by
        have hR := t.perm ((hperm.symm.map Item.job).filter tok) hR
        rcases (pickNext_cases hp).2.2 with rfl | ⟨n, rfl⟩
        · exact hR
        · obtain ⟨o, ho⟩ := c.dev.choose_dev n
          rw [ho]
          exact t.choices o hR
      have hturn := pickNext_inTurn hp
      rcases Cascades.next_jobs c command it rest d1 with ⟨hcmd, hdev, hitems, hmasks⟩ | ⟨hcmd, m, hkeeps, hdev, new, hitems, hjobs, hlife⟩
      · rw [hdev, hitems]
        rw [hcmd] at hit hR1 hturn
        exact ⟨hrest, b, fun hb => by unfold Cascades.Fresh; rw [hmasks]; exact hfresh hb, t.command hit hws hturn hR1⟩
      · have hmask : b = true → m = (Machine.act (rest.map Item.job) d1 it.job).mask d1 := fun hb => hkeeps.own (hfresh hb)
        rw [hdev, hitems]
        refine ⟨fun x hx => ?_, b && (settle d1 (Machine.act (rest.map Item.job) d1 it.job).dev m).2 == 0, fun hb => ?_, ?_⟩
        · rcases List.mem_append.mp hx with hx | hx
          · exact hrest x hx
          · have hl := hlife x hx
            have hx' : x.job ∈ new.map Item.job := List.mem_map_of_mem hx
            rw [hjobs, if_neg (by omega)] at hx'
            rw [← hl] at hit
            exact t.handsOn hit hcmd hws hmask hR1 _ hx'
        · obtain ⟨hb, hs⟩ := Bool.and_eq_true_iff.mp hb
          exact hkeeps.fresh (hfresh hb) (beq_iff_eq.mp hs)
        · rw [List.map_append, List.filter_append, hjobs]
          have := t.act (m := m) hit hcmd hws hturn hmask hR1
          split at this
          · next h0 => rw [if_pos h0]; exact this
          · next h0 => rw [if_neg h0]; exact this)
  rw [he]
  rw [hi] at hc
  exact ⟨b, hc⟩

/-- The same, where `R` does not ask which terms have changed. -/
structure Tracks (J : Job → Nat → Prop) (tok : Job → Bool) (command : Device → Device) (R : Device → List Job → Prop) : Prop where
  perm : ∀ {d ts ts'}, ts.Perm ts' → R d ts → R d ts'
  choices : ∀ {d ts} (o : Choices), R d ts → R { d with choices := o } ts
  act : ∀ {ws d j n m}, J j n → j ≠ .command → (∀ w ∈ ws, w = .command ∨ ∃ n, J w n) → j.InTurn d ws → R d ((j :: ws).filter tok) →
    R (settled d (act ws d j) m) (ws.filter tok ++ if n = 0 then [] else (handedOn d (act ws d j) m).filter tok)
  handsOn : ∀ {ws d j n m}, J j (n + 1) → j ≠ .command → (∀ w ∈ ws, w = .command ∨ ∃ n, J w n) → R d ((j :: ws).filter tok) →
    ∀ x ∈ handedOn d (Machine.act ws d j) m, J x n
  command : ∀ {ws d n}, J .command n → (∀ w ∈ ws, w = .command ∨ ∃ n, J w n) → Job.command.InTurn d ws → R d ((Job.command :: ws).filter tok) →
    R (command d) (ws.filter tok)

theorem Tracks.fresh {J : Job → Nat → Prop} {tok : Job → Bool} {command : Device → Device} {R : Device → List Job → Prop}
    (t : Tracks J tok command R) : FreshTracks J tok command fun _ => R where
  perm := t.perm
  choices := t.choices
  act hj hc hws hturn _ h := t.act hj hc hws hturn h
  handsOn hj hc hws _ h := t.handsOn hj hc hws h
  command := t.command

/-- What the start has, the end has, with no event waiting any more. -/
theorem Tracks.runRoots {J : Job → Nat → Prop} {tok : Job → Bool} {command : Device → Device} {R : Device → List Job → Prop}
    (t : Tracks J tok command R) (d : Device) (roots : List Job) (hm : ∀ j ∈ roots, j.Modest) (hj : ∀ j ∈ roots, J j Config.generations)
    (h : R d (roots.filter tok)) : R (d.runRoots command roots) [] := by
  obtain ⟨-, hr⟩ := t.fresh.runRoots d roots hm hj h
  exact hr

/-- One event, followed to its end. -/
theorem Tracks.runJob {J : Job → Nat → Prop} {tok : Job → Bool} {R : Device → List Job → Prop} (t : Tracks J tok id R) (d : Device) (j : Job)
    (hc : j ≠ .command) (hm : j.Modest) (hj : J j Config.generations) (h : R d ([j].filter tok)) : R (d.runJob j) [] := by
  rw [← d.runRoots_single j hc]
  refine t.runRoots d [j] (fun x hx => ?_) (fun x hx => ?_) h
  · rw [List.mem_singleton.mp hx]; exact hm
  · rw [List.mem_singleton.mp hx]; exact hj

end Sys2Proof.Machine

/-! What an event hands on: the effect's own jobs, the reactions to what the settled change moves, and PERMIT_DROPPED. -/

namespace Sys2Proof.Machine

/-! ## Reactions -/

/-- What the settled change from `d0` to `d` can hand on to those that read it, with what must have moved for it. -/
inductive Reaction (d0 d : Device) : Job → Prop
  | edge (k : Fin 6) : d0.level d.timers[k].input ≠ d.level d.timers[k].input →
      Reaction d0 d (.timerEdge k d.timers[k].input (d.level d.timers[k].input))
  | demand (z : Fin 12) : d0.holdDemand z ≠ d.holdDemand z → Reaction d0 d (.zoneDemand z (d.holdDemand z))
  | hard : hardRises d0 d = true → Reaction d0 d (.hardRise (risenCause d0 d) (d.causeIndex (risenCause d0 d)))
  | softRise : d0.softLevel ≠ d.softLevel → Reaction d0 d (.softRise (d.causeIndex .softTerm))
  | softFall : d0.softLevel ≠ d.softLevel → Reaction d0 d .softFall
  | trigger (js : List (Fin 8)) : js ≠ [] → (∀ j ∈ js, d.boundTo .captureTrigger j = true ∧ d0.terms[j].value = false ∧ d.terms[j].value = true) →
      Reaction d0 d (.captureTrigger (js.map fun j => 3 + j.val))
  | permit (source reason : Nat) : Reaction d0 d (.permitDropped source reason)

theorem mem_timerReactions {d0 d : Device} {b : Bool} {x : Job} (h : x ∈ timerReactions d0 d b) : Reaction d0 d x := by
  obtain ⟨k, -, h⟩ := List.mem_flatMap.mp h
  dsimp only at h
  split at h
  · next hc =>
    rw [List.mem_singleton.mp h]
    exact .edge k (by simpa using (Bool.and_eq_true_iff.mp hc).2)
  · cases h

theorem mem_demandReactions {d0 d : Device} {x : Job} (h : x ∈ demandReactions d0 d) : Reaction d0 d x := by
  obtain ⟨z, -, h⟩ := List.mem_flatMap.mp h
  split at h
  · next hc =>
    rw [List.mem_singleton.mp h]
    exact .demand z (by simpa using hc)
  · cases h

theorem mem_hardReactions {d0 d : Device} {b : Bool} {x : Job} (h : x ∈ hardReactions d0 d b) : Reaction d0 d x := by
  unfold hardReactions at h
  dsimp only at h
  split at h
  · next hc =>
    rw [List.mem_singleton.mp h]
    exact .hard (Bool.and_eq_true_iff.mp hc).1
  · cases h

theorem mem_softReactions {d0 d : Device} {x : Job} (h : x ∈ softReactions d0 d) : Reaction d0 d x := by
  unfold softReactions at h
  rcases List.mem_append.mp h with h | h
  · split at h
    · next hc =>
      rw [List.mem_singleton.mp h]
      refine .softRise fun he => ?_
      rw [he] at hc
      cases hl : d.softLevel <;> simp [hl] at hc
    · cases h
  · split at h
    · next hc =>
      rw [List.mem_singleton.mp h]
      refine .softFall fun he => ?_
      rw [he] at hc
      cases hl : d.softLevel <;> simp [hl] at hc
    · cases h

theorem mem_captureReactions {d0 d : Device} {x : Job} (h : x ∈ captureReactions d0 d) : Reaction d0 d x := by
  unfold captureReactions at h
  dsimp only at h
  split at h
  · cases h
  · next hne =>
    rw [List.mem_singleton.mp h]
    refine .trigger _ (by simpa using hne) fun j hj => ?_
    simpa [and_assoc] using (List.mem_filter.mp hj).2

/-- All that an event can hand on: its own jobs, and reactions to what its settled change moves. -/
theorem mem_handedOn {d : Device} {e : Effect} {m : TermSet} {x : Job} (h : x ∈ handedOn d e m) :
    x ∈ e.next ∨ Reaction d (settled d e m) x := by
  simp only [handedOn, directReactions, termReactions, List.mem_append] at h
  rcases h with ((h | h | h) | h) | (((h | h) | h) | h) | h
  · exact .inl h
  · exact .inr (mem_timerReactions h)
  · exact .inr (mem_hardReactions h)
  · obtain ⟨s, r, -, rfl⟩ := mem_leftToRaise h
    exact .inr (.permit s r)
  · exact .inr (mem_timerReactions h)
  · exact .inr (mem_demandReactions h)
  · exact .inr (mem_hardReactions h)
  · exact .inr (mem_softReactions h)
  · exact .inr (mem_captureReactions h)

/-! ## The jobs of the effects themselves -/

/-- The events at the Monitor that can declare a break. -/
def Job.declares : Job → Bool
  | .hardRise _ _ | .monitorTick => true
  | _ => false

/-- What an event hands on beside the reactions. -/
inductive HandsOn (d : Device) : Job → Job → Prop
  | tick (c : Fin 32) : HandsOn d (.channelTick c) (.channelChange c d.channels[c].tick.1 d.channels[c].tickValidities)
  | sample (c : Fin 32) (w : Word) :
      HandsOn d (.channelSample c w) (.channelChange c (d.channels[c].takeSample w).1 (sampleValidities d.channels[c] w))
  | loss (x : Channel) (vs : List Validity) : d.channels[d.speed.speedChannel].validity = .fresh → vs ≠ [] →
      HandsOn d (.channelChange d.speed.speedChannel x vs) .speedLoss
  | validity (c : Fin 32) (x : Channel) (vs : List Validity) (v : Validity) (z : Fin 12) : v ∈ vs → d.zones[z].measChannel = c →
      HandsOn d (.channelChange c x vs) (.zoneValidity z v)
  | request (w : Word) : w.getLsbD 1 = true → d.capture.lastRequest = false → HandsOn d (.controlWord w) (.captureTrigger [1])
  | cascade (k : Fin 6) (source : ClockSource) : d.timers[nextUnit k].clock = .cascade →
      HandsOn d (.timerClock k source) (.timerClock (nextUnit k) .cascade)
  | zonesBreak (j : Job) : j.declares = true → d.monitor.state.mayDeclare = true → HandsOn d j .zonesBreak
  | trigger (j : Job) : j.declares = true → d.monitor.state.mayDeclare = true → HandsOn d j (.captureTrigger [2])

theorem handsOn_declaration {d : Device} {j x : Job} (hj : j.declares = true) (hd : d.monitor.state.mayDeclare = true)
    (h : x ∈ declarationJobs) : HandsOn d j x := by
  simp only [declarationJobs, List.mem_cons, List.not_mem_nil, or_false] at h
  rcases h with rfl | rfl
  · exact .zonesBreak j hj hd
  · exact .trigger j hj hd

theorem Device.monitorTick_declares {d : Device} (h : d.monitorTick.2 = true) : d.monitor.state = .suspect := by
  unfold Device.monitorTick at h
  split at h
  · assumption
  · cases h

theorem mem_act_next {ws : List Job} {d : Device} {j x : Job} (h : x ∈ (act ws d j).next) : HandsOn d j x := by
  cases j <;> simp only [act, Device.announceChannel, Device.changeChannel, Device.takeControl, Device.clockEffect, Device.declareEffect,
    validityJobs] at h
  case channelTick c => rw [List.mem_singleton.mp h]; exact .tick c
  case channelSample c w => rw [List.mem_singleton.mp h]; exact .sample c w
  case channelChange c y vs =>
    rcases List.mem_append.mp h with hl | hr
    · split at hl
      · next hc =>
        obtain ⟨rfl, hv, hn⟩ := hc
        rw [List.mem_singleton.mp hl]
        exact .loss y vs hv hn
      · cases hl
    · obtain ⟨v, hv, hr⟩ := List.mem_flatMap.mp hr
      obtain ⟨z, hz, rfl⟩ := List.mem_map.mp hr
      exact .validity c y vs v z hv (by simpa using (List.mem_filter.mp hz).2)
  case controlWord w =>
    split at h
    · next hc =>
      rw [List.mem_singleton.mp h]
      simp only [Bool.and_eq_true, Bool.not_eq_true'] at hc
      exact .request w hc.1 hc.2
    · cases h
  case timerClock k source =>
    split at h
    · next hc =>
      rw [List.mem_singleton.mp h]
      exact .cascade k source (by simpa using (Bool.and_eq_true_iff.mp hc).2)
    · cases h
  case hardRise c n =>
    split at h
    · next hd => exact handsOn_declaration rfl hd h
    · cases h
  case monitorTick =>
    split at h
    · next hd => exact handsOn_declaration rfl (by rw [Device.monitorTick_declares hd]; rfl) h
    · cases h
  all_goals cases h

/-- The kinds of events that only come from outside: none is ever handed on. -/
def Job.fromOutside : Job → Bool
  | .timeoutTick | .linkGood | .linkBad | .channelTick _ | .channelSample _ _ | .speedSample | .zoneTick _ | .zoneArrival _ | .deferredTerm _
  | .monitorTick | .captureRecord _ | .controlWord _ | .breakWord _ | .markLevel _ | .wbrkLevel _ | .command => true
  | .timerClock _ source => source != .cascade
  | _ => false

theorem fromOutside_of_mem_handedOn {ws : List Job} {d : Device} {j x : Job} {m : TermSet} (h : x ∈ handedOn d (act ws d j) m) :
    x.fromOutside = false := by
  rcases mem_handedOn h with h | h
  · cases mem_act_next h <;> rfl
  · cases h <;> rfl

/-! ## Terms and timers that read only constants -/

/-- The condition network, as far as it hands events on: the terms, and the inputs of the timers. -/
structure SameNetwork (d d' : Device) : Prop where
  terms : d'.terms = d.terms
  inputs : ∀ k : Fin 6, d'.timers[k].input = d.timers[k].input

theorem Device.Unread.congr {d d' : Device} (h : d.Unread) (s : SameNetwork d d') : d'.Unread := by
  obtain ⟨ht, hk⟩ := h
  exact ⟨fun j => by rw [s.terms]; exact ht j, fun k => by rw [s.inputs]; exact hk k⟩

theorem Device.level_isFixed {d d' : Device} {c : Cond} (h : c.isFixed = true) : d.level c = d'.level c := by
  cases c <;> first | rfl | cases h

/-- Terms that read only constants do not settle anew. -/
theorem settle_unread {d0 d : Device} (h : ∀ j : Fin 8, ∀ c ∈ d.terms[j].inputs, c.isFixed = true) (m : TermSet) : settle d0 d m = (d, m) := by
  have step : ∀ j, settleTerm d0 (d, m) j = (d, m) := fun j => by
    have hany : (d.terms[j].inputs.any fun c => d0.level c != d.level c) = false := List.any_eq_false.mpr fun c hc => by
      rw [Device.level_isFixed (d := d0) (d' := d) (h j c hc)]
      simp
    unfold settleTerm
    dsimp only
    rw [if_neg (by rw [hany]; simp)]
  unfold settle
  generalize List.finRange 8 = js
  induction js with
  | nil => rfl
  | cons j js ih => rw [List.foldl_cons, step, ih]

theorem termEvents_of_same {d0 d : Device} (h : d.terms = d0.terms) : termEvents d0 d = [] := by
  unfold termEvents
  rw [List.map_eq_nil_iff, List.filter_eq_nil_iff]
  intro j _
  rw [h]
  simp

/-- Where the terms read only constants and the effect leaves them, the effect settles at once: the permit drops where it must. -/
theorem settled_unread {d : Device} {e : Effect} (h : ∀ j : Fin 8, ∀ c ∈ d.terms[j].inputs, c.isFixed = true) (ht : e.dev.terms = d.terms)
    (m : TermSet) : settled d e m = e.dev.dropPermit := by
  have hs := settle_unread (d0 := d) (d := e.dev) (by rwa [ht]) m
  unfold settled settleAndDrop
  rw [hs]
  dsimp only
  rw [termEvents_of_same ht]
  simp

/-- No event but a deferred term moves the network by itself. -/
theorem act_network {ws : List Job} {d : Device} {j : Job} (hj : ∀ i, j ≠ .deferredTerm i) : (act ws d j).dev.terms = d.terms := by
  have h := act_frame ws d j
  cases j <;> simp only [Job.Frame] at h
  case deferredTerm i => exact absurd rfl (hj i)
  case timeoutTick | linkGood | linkBad => obtain ⟨_, _, _, _, h⟩ := h; rw [h]
  case channelTick | channelSample | permitDropped | speedLoss | speedSample | timerEdge | timerClock => obtain ⟨_, h⟩ := h; rw [h]
  case zoneValidity | zoneDemand | zoneTick | zoneArrival | zonesBreak => obtain ⟨_, _, _, _, _, _, _, h⟩ := h; rw [h]
  case hardRise | softRise | softFall | monitorTick => obtain ⟨_, _, _, h⟩ := h; rw [h]
  case captureTrigger | captureRecord => obtain ⟨_, _, h⟩ := h; rw [h]
  case channelChange => rw [h, Device.setChannel_terms]
  all_goals rw [h]

/-! ## The sources of the hard level -/

/-- What the Monitor's sources are formed from: the fields that only a write or a delivered break word changes. -/
structure Monitor.SameSources (m m' : Monitor) : Prop where
  enable : m'.wbrkEnable = m.wbrkEnable
  active : m'.wbrkActive = m.wbrkActive
  membership : m'.membership = m.membership
  notice : m'.lastNotice = m.lastNotice
  assertion : m'.lastAssert = m.lastAssert

theorem Monitor.SameSources.refl (m : Monitor) : m.SameSources m := ⟨rfl, rfl, rfl, rfl, rfl⟩

theorem Device.declareBreak_sources (d : Device) (c : BreakCause) (n : Nat) : d.monitor.SameSources (d.declareBreak c n).monitor := by
  unfold Device.declareBreak
  split
  · exact ⟨rfl, rfl, rfl, rfl, rfl⟩
  · exact .refl _

theorem Device.monitorTick_sources (d : Device) : d.monitor.SameSources d.monitorTick.1.monitor := by
  unfold Device.monitorTick
  split
  · dsimp only
    split
    · obtain ⟨h1, h2, h3, h4, h5⟩ := Device.declareBreak_sources { d with monitor := d.monitor.countTick } .softTerm
        (({ d with monitor := d.monitor.countTick } : Device).causeIndex .softTerm)
      exact ⟨h1, h2, h3, h4, h5⟩
    · exact ⟨rfl, rfl, rfl, rfl, rfl⟩
  · exact .refl _

/-- R137: only a delivered break word changes what the Monitor's sources are formed from. -/
theorem act_sources (ws : List Job) (d : Device) {j : Job} (hj : ∀ w, j ≠ .breakWord w) : d.monitor.SameSources (act ws d j).dev.monitor := by
  cases hm : j.movesMonitor with
  | false =>
    rw [(act_frame ws d j).spares.monitor hm]
    exact .refl _
  | true =>
    cases j
    case hardRise c n => exact d.declareBreak_sources c _
    case softRise n =>
      show d.monitor.SameSources (d.enterSuspect _).monitor
      unfold Device.enterSuspect
      split
      · exact ⟨rfl, rfl, rfl, rfl, rfl⟩
      · exact .refl _
    case softFall =>
      show d.monitor.SameSources d.clearSuspect.monitor
      unfold Device.clearSuspect
      split
      · exact ⟨rfl, rfl, rfl, rfl, rfl⟩
      · exact .refl _
    case monitorTick => exact d.monitorTick_sources
    case breakWord w => exact absurd rfl (hj w)
    all_goals cases hm

theorem act_wbrk (ws : List Job) (d : Device) {j : Job} (hj : ∀ l, j ≠ .wbrkLevel l) : (act ws d j).dev.lines.wbrk = d.lines.wbrk := by
  cases hm : j.movesLines with
  | false => rw [(act_frame ws d j).spares.lines hm]
  | true =>
    cases j
    case markLevel => rfl
    case wbrkLevel l => exact absurd rfl (hj l)
    all_goals cases hm

/-! ## The wiring of the units -/

/-- The fields of a unit that say what it reads and what clocks it. -/
structure Timer.SameWiring (t t' : Timer) : Prop where
  input : t'.input = t.input
  clock : t'.clock = t.clock
  hold : t'.hold = t.hold

theorem Timer.SameWiring.refl (t : Timer) : t.SameWiring t := ⟨rfl, rfl, rfl⟩

theorem Timer.loadLatch_wiring (t : Timer) : t.SameWiring t.loadLatch := by
  unfold Timer.loadLatch
  split <;> exact ⟨rfl, rfl, rfl⟩

theorem Timer.start_wiring (t : Timer) : t.SameWiring t.start := by
  obtain ⟨hi, hc, hh⟩ := t.loadLatch_wiring
  exact ⟨hi, hc, hh⟩

theorem Timer.takeEdge_wiring (t : Timer) (level : Bool) : t.SameWiring (t.takeEdge level) := by
  obtain ⟨hi, hc, hh⟩ := ({ t with inputLevel := level } : Timer).start_wiring
  unfold Timer.takeEdge
  dsimp only
  split <;> split
  case h_3.isTrue => split <;> exact ⟨hi, hc, hh⟩
  all_goals first | exact ⟨hi, hc, hh⟩ | exact ⟨rfl, rfl, rfl⟩

theorem Timer.takeClock_wiring (t : Timer) : t.SameWiring t.takeClock.1 := by
  obtain ⟨hi, hc, hh⟩ := ({ t with count := 0 } : Timer).loadLatch_wiring
  unfold Timer.takeClock
  split
  case h_1 | h_2 | h_3 => split; exact .refl t; split <;> exact ⟨rfl, rfl, rfl⟩
  case h_4 => split <;> exact ⟨rfl, rfl, rfl⟩
  case h_5 => split; exact ⟨rfl, rfl, rfl⟩; split; exact ⟨hi, hc, hh⟩; exact ⟨rfl, rfl, rfl⟩

/-- R106, R107: no event changes what a unit reads or what clocks it. -/
theorem act_wiring (ws : List Job) (d : Device) (j : Job) (k : Fin 6) : d.timers[k].SameWiring (act ws d j).dev.timers[k] := by
  have keeps : ∀ {k' : Fin 6} {t : Timer}, d.timers[k'].SameWiring t → d.timers[k].SameWiring (d.setTimer k' t).timers[k] := fun {k' t} h => by
    rw [Device.setTimer_get]
    split
    · next hk => rw [hk]; exact h
    · exact .refl _
  cases hm : j.movesTimers with
  | false =>
    rw [(act_frame ws d j).spares.timers hm]
    exact .refl _
  | true =>
    cases j
    case timerEdge k' c b =>
      show d.timers[k].SameWiring (d.edgeTimer k' c b).timers[k]
      unfold Device.edgeTimer
      dsimp only
      split
      · exact .refl _
      · exact keeps (Timer.takeEdge_wiring _ _)
    case timerClock k' source =>
      show d.timers[k].SameWiring (d.clockTimer k' source).1.timers[k]
      unfold Device.clockTimer
      dsimp only
      split
      · exact .refl _
      · exact keeps (Timer.takeClock_wiring _)
    all_goals cases hm

theorem settled_wiring (ws : List Job) (d : Device) (j : Job) (m : TermSet) (k : Fin 6) :
    d.timers[k].SameWiring (settled d (act ws d j) m).timers[k] := by
  obtain ⟨_, _, _, _, hs⟩ := settled_frame d (act ws d j) m
  rw [hs]
  exact act_wiring ws d j k

theorem settled_sources (ws : List Job) (d : Device) {j : Job} (m : TermSet) (hj : ∀ w, j ≠ .breakWord w) :
    d.monitor.SameSources (settled d (act ws d j) m).monitor := by
  obtain ⟨_, _, _, _, hs⟩ := settled_frame d (act ws d j) m
  rw [hs]
  exact act_sources ws d hj

/-! ## Events where terms and timers read only constants -/

theorem Device.Unread.settled {d : Device} (h : d.Unread) (ws : List Job) {j : Job} (hj : ∀ i, j ≠ .deferredTerm i) (m : TermSet) :
    Machine.settled d (act ws d j) m = (act ws d j).dev.dropPermit :=
  settled_unread h.1 (act_network hj) m

theorem Device.Unread.settled_terms {d : Device} (h : d.Unread) (ws : List Job) {j : Job} (hj : ∀ i, j ≠ .deferredTerm i) (m : TermSet) :
    (Machine.settled d (act ws d j) m).terms = d.terms := by
  rw [h.settled ws hj m]
  obtain ⟨p, hp⟩ := (act ws d j).dev.dropPermit_eq
  rw [hp]
  exact act_network hj

/-- Constants stay constants. -/
theorem Device.Unread.kept {d : Device} (h : d.Unread) (ws : List Job) {j : Job} (hj : ∀ i, j ≠ .deferredTerm i) (m : TermSet) :
    (Machine.settled d (act ws d j) m).Unread :=
  h.congr ⟨h.settled_terms ws hj m, fun k => (settled_wiring ws d j m k).input⟩

theorem Device.anyTerm_congr {d d' : Device} (h : d'.terms = d.terms) (b : Binding) : d'.anyTerm b = d.anyTerm b := by
  simp only [Device.anyTerm, Device.lowestTerm, Device.boundTo, h]

theorem Device.holdDemand_congr {d d' : Device} (h : d'.terms = d.terms) (z : Fin 12) : d'.holdDemand z = d.holdDemand z := by
  simp only [Device.holdDemand, Device.boundTo, h]

/-- R137, R138: the hard level stands over an event that leaves the terms bound HARD_BREAK, unless it brings a break word or a level of WBRK. -/
theorem hardLevel_of_anyTerm {d : Device} {ws : List Job} {j : Job} {m : TermSet}
    (ht : (Machine.settled d (act ws d j) m).anyTerm .hardBreak = d.anyTerm .hardBreak)
    (hw : ∀ w, j ≠ .breakWord w) (hl : ∀ l, j ≠ .wbrkLevel l) : (Machine.settled d (act ws d j) m).hardLevel = d.hardLevel := by
  obtain ⟨hs1, hs2, hs3, hs4, hs5⟩ := settled_sources ws d m hw
  have hwbrk : (Machine.settled d (act ws d j) m).lines.wbrk = d.lines.wbrk := by
    obtain ⟨_, _, _, _, he⟩ := settled_frame d (act ws d j) m
    rw [he]
    exact act_wbrk ws d hl
  simp only [Device.hardLevel, Device.wbrkSource, Monitor.token, Monitor.tokenGroups, ht, hs1, hs2, hs3, hs4, hs5, hwbrk]

theorem hardLevel_still {d : Device} {ws : List Job} {j : Job} {m : TermSet} (ht : (Machine.settled d (act ws d j) m).terms = d.terms)
    (hw : ∀ w, j ≠ .breakWord w) (hl : ∀ l, j ≠ .wbrkLevel l) : (Machine.settled d (act ws d j) m).hardLevel = d.hardLevel :=
  hardLevel_of_anyTerm (Device.anyTerm_congr ht _) hw hl

/-- What an event that leaves the terms hands on: its own jobs, edges at the units whose input it moves, PERMIT_DROPPED; and a rise of the hard
level, where it brings a break word or a level of WBRK. -/
theorem mem_handedOn_still {d : Device} {ws : List Job} {j x : Job} {m : TermSet} (ht : (Machine.settled d (act ws d j) m).terms = d.terms)
    (hx : x ∈ handedOn d (act ws d j) m) :
    HandsOn d j x ∨ (∃ s r, x = .permitDropped s r)
      ∨ (∃ k : Fin 6, d.level (Machine.settled d (act ws d j) m).timers[k].input ≠
            (Machine.settled d (act ws d j) m).level (Machine.settled d (act ws d j) m).timers[k].input ∧ ∃ c b, x = .timerEdge k c b)
      ∨ (((∃ w, j = .breakWord w) ∨ ∃ l, j = .wbrkLevel l) ∧ hardRises d (Machine.settled d (act ws d j) m) = true ∧ ∃ c n, x = .hardRise c n) := by
  rcases Machine.mem_handedOn hx with hx | hx
  · exact .inl (mem_act_next hx)
  · cases hx with
    | edge k hk => exact .inr (.inr (.inl ⟨k, hk, _, _, rfl⟩))
    | demand z hz => exact absurd (Device.holdDemand_congr ht z).symm hz
    | softRise hs => exact absurd (Device.anyTerm_congr ht _).symm hs
    | softFall hs => exact absurd (Device.anyTerm_congr ht _).symm hs
    | trigger js hne hjs =>
      obtain ⟨i, hi⟩ := List.exists_mem_of_ne_nil js hne
      obtain ⟨-, h0, h1⟩ := hjs i hi
      rw [ht, h0] at h1
      cases h1
    | permit s r => exact .inr (.inl ⟨s, r, rfl⟩)
    | hard hr =>
      refine .inr (.inr (.inr ⟨?_, hr, _, _, rfl⟩))
      by_contra hne
      rw [not_or] at hne
      have hsame := hardLevel_still ht (fun w hw => hne.1 ⟨w, hw⟩) fun l hj => hne.2 ⟨l, hj⟩
      unfold hardRises at hr
      rw [hsame] at hr
      cases hb : d.hardLevel <;> simp [hb] at hr

/-- Where terms and timers read only constants, an event hands on its own jobs and PERMIT_DROPPED; only a delivered break word or the WBRK
line can bring a rise of the hard level. -/
theorem Device.Unread.mem_handedOn {d : Device} (h : d.Unread) {ws : List Job} {j x : Job} {m : TermSet} (hj : ∀ i, j ≠ .deferredTerm i)
    (hx : x ∈ handedOn d (act ws d j) m) :
    HandsOn d j x ∨ (∃ s r, x = .permitDropped s r)
      ∨ (((∃ w, j = .breakWord w) ∨ ∃ l, j = .wbrkLevel l) ∧ hardRises d (Machine.settled d (act ws d j) m) = true ∧ ∃ c n, x = .hardRise c n) := by
  rcases mem_handedOn_still (h.settled_terms ws hj m) hx with hx | hx | ⟨k, hk, -⟩ | hx
  · exact .inl hx
  · exact .inr (.inl hx)
  · refine absurd (Device.level_isFixed ?_) hk
    rw [(settled_wiring ws d j m k).input]
    exact h.2 k
  · exact .inr (.inr hx)

end Sys2Proof.Machine

/-! The countdowns of the Capture Buffer and of the actuators (O19). -/

namespace Sys2Proof.Machine

/-! ## The Capture Buffer -/

/-- R172: a buffer that takes no trigger stands, whatever the triggers. -/
theorem Device.captureTriggers_ignored {d : Device} (h : d.capture.state.acceptsTrigger = false) (ns : List Nat) :
    ns.foldl Device.captureTrigger d = d := by
  have one : ∀ n, d.captureTrigger n = d := fun n => if_neg (by rw [h]; simp)
  induction ns with
  | nil => rfl
  | cons n ns ih => rw [List.foldl_cons, one, ih]

/-- What an event leaves of the Capture Buffer, once its change has settled. -/
theorem settled_capture (d : Device) (e : Effect) (m : TermSet) : (settled d e m).capture = e.dev.capture := by
  obtain ⟨_, _, _, _, h⟩ := settled_frame d e m
  rw [h]

/-- R172: a buffer that takes no trigger stands, until a completion is recorded or a control word taken. -/
theorem capture_stands (x : Capture) (hx : x.state.acceptsTrigger = false) :
    KeptByEvent (fun d => d.capture = x) fun j => j.fromOutside = false where
  choose d n h := by
    obtain ⟨o, ho⟩ := d.choose_dev n
    rw [ho]
    exact h
  act ws d j m h hj := by
    rw [settled_capture]
    cases hm : j.movesCapture with
    | false => rw [(act_frame ws d j).spares.capture hm, h]
    | true =>
      cases j
      case captureTrigger ns =>
        show (ns.foldl Device.captureTrigger d).capture = x
        rw [Device.captureTriggers_ignored (by rw [h, hx]), h]
      case captureRecord | controlWord => cases hj
      all_goals cases hm
  handsOn ws d j m _ _ y hy := fromOutside_of_mem_handedOn hy

/-- R170, R171: the recording that ends a WINDOW countdown. -/
theorem Device.recordCompletion_windowEnds {d : Device} (h : d.windowEnds = true) (good : Bool) :
    (d.recordCompletion good).capture.state = .frozen ∧ (d.recordCompletion good).capture.countdown = 0
      ∧ (d.recordCompletion good).capture.markOwed = false
      ∧ (d.recordCompletion good).capture.records = pushRecord d.capture.records (d.makeRecord good) := by
  simp only [Device.windowEnds, Bool.and_eq_true, beq_iff_eq, decide_eq_true_eq] at h
  obtain ⟨⟨⟨hs, hm⟩, hc⟩, hn⟩ := h
  have hz : (d.capture.add (d.makeRecord good)).countdown = 0 := by
    simp only [Capture.add, hs, hm, and_self, if_true]
    omega
  have hf : (d.capture.add (d.makeRecord good)).freezeSource = some 3 := by
    simp only [Capture.freezeSource, hz]
    simp [Capture.add, hs, hm]
  have hr : d.recordCompletion good = ({ d with capture := { d.capture.add (d.makeRecord good) with
      counter := d.capture.nextCounter, state := .frozen } } : Device).raise .captureFrozen 3
        (natWord (d.capture.add (d.makeRecord good)).retained) := by
    unfold Device.recordCompletion
    rw [if_pos (by rw [hs]; rfl), if_pos hc]
    dsimp only
    rw [hf]
    rfl
  rw [hr]
  refine ⟨rfl, hz, ?_, rfl⟩
  show (if d.capture.state = .postfill then false else d.capture.markOwed) = false
  rw [if_pos hs]

/-! ## Bound actuators -/

theorem SlotMap.binds_iff (m : SlotMap) (r : Role) : m.binds r = true ↔ ∃ (i : Fin 64) (e : SlotEntry), m.entries[i] = some e ∧ e.role = r := by
  simp only [SlotMap.binds, List.any_eq_true, Vector.mem_toList_iff, Option.any_eq_true, beq_iff_eq]
  constructor
  · rintro ⟨e, he, x, rfl, hx⟩
    obtain ⟨i, hi, h⟩ := Vector.mem_iff_getElem.mp he
    exact ⟨⟨i, hi⟩, x, h, hx⟩
  · rintro ⟨i, x, h, hx⟩
    exact ⟨_, Vector.getElem_mem i.isLt, x, h, hx⟩

/-! ## Rows that occur -/

theorem Device.occur_true {d : Device} (h : d.lines.rstn = true) (a : Device) : d.occur true a = a := if_pos (by rw [h]; rfl)

theorem Device.occur_false (d a : Device) : d.occur false a = d := if_neg (by simp)

theorem exec_captureWindowExpiry (good : Bool) (s : State) : exec (.captureWindowExpiry good) s =
    .next { s with dev := s.dev.occur s.dev.windowEnds (s.dev.runJob (.captureRecord good)) } := rfl

theorem exec_actuatorDelayExpiry (a : Fin 16) (s : State) : exec (.actuatorDelayExpiry a) s =
    .next { s with dev := s.dev.occur (s.dev.delayExpires a) (s.dev.passActuator a) } := rfl

/-- Settles O19: the recording freezes the buffer, and nothing that follows from it moves a frozen buffer. -/
theorem countdownsOfCaptureAndActuatorEnd : Obligations.CountdownsOfCaptureAndActuatorEnd := by
  refine ⟨fun good s hr hs hm hc hn => ?_, fun a s hr hready hp hn hbound => ?_, fun a s h => ?_⟩
  · have hw : s.dev.windowEnds = true := by simp [Device.windowEnds, hs, hm, hc, hn]
    obtain ⟨hstate, hcountdown, hmark, hrecords⟩ := Device.recordCompletion_windowEnds hw good
    have hend : (s.dev.runJob (.captureRecord good)).capture = (s.dev.recordCompletion good).capture :=
      Device.runEffect_keeps (capture_stands _ (by rw [hstate]; rfl)) s.dev (act [] s.dev (.captureRecord good))
        (fun m => settled_capture _ _ _) (fun m x hx => fromOutside_of_mem_handedOn hx)
    refine ⟨{ s with dev := s.dev.runJob (.captureRecord good) }, ?_, ?_⟩
    · rw [exec_captureWindowExpiry, hw, Device.occur_true hr]
    · rw [hend]
      refine ⟨hstate, hcountdown, hmark, hrecords.trans ?_⟩
      simp [Device.makeRecord, hs]
  · have hd : s.dev.delayExpires a = true := by
      simp only [Device.delayExpires, hready, (SlotMap.binds_iff _ _).mpr hbound, Actuator.delayEnds, hp, decide_eq_true hn]
      rfl
    intro x source v
    have hx : x.pass source = { x with
        unseen := false, value := v, converging := if v = source then false else x.converging, phase := .acting, countdown := 0 } := by
      rw [Actuator.pass_delaying hp, Actuator.sourceAdvance_seen, Actuator.countPassing, if_neg (by exact Nat.not_lt.mpr hn)]
    rw [← hx]
    rw [exec_actuatorDelayExpiry, hd, Device.occur_true hr]
    rfl
  · have hd : s.dev.delayExpires a = false := by
      unfold Device.delayExpires
      rcases h with h | h
      · rw [h]; rfl
      · have hb : s.dev.slotMap.binds (.output a) = false :=
          Bool.eq_false_iff.mpr fun hb => by
            obtain ⟨i, e, he, hr⟩ := (SlotMap.binds_iff _ _).mp hb
            exact h i e he hr
        rw [hb]
        simp
    rw [exec_actuatorDelayExpiry, hd, Device.occur_false]

end Sys2Proof.Machine

/-! The Event Queue over what an event raises, and what an event at a zone leaves of the other zones and of the Mailbox. -/

namespace Sys2Proof.Machine

/-! ## What joins the queue -/

/-- R188: on the way from `q` to `q'` records that satisfy `p` are offered, and nothing is read out. -/
def EventQueue.Grows (p : EventRecord → Prop) (q q' : EventQueue) : Prop := ∃ es : List EventRecord, (∀ e ∈ es, p e) ∧ q' = es.foldl EventQueue.offer q

theorem EventQueue.Grows.refl {p : EventRecord → Prop} (q : EventQueue) : q.Grows p q := ⟨[], by simp, rfl⟩

theorem EventQueue.Grows.trans {p : EventRecord → Prop} {a b c : EventQueue} (h : a.Grows p b) (k : b.Grows p c) : a.Grows p c := by
  obtain ⟨es, hes, rfl⟩ := h
  obtain ⟨fs, hfs, rfl⟩ := k
  exact ⟨es ++ fs, fun e he => (List.mem_append.mp he).elim (hes e) (hfs e), List.foldl_append.symm⟩

theorem EventQueue.Grows.mono {p r : EventRecord → Prop} {a b : EventQueue} (h : a.Grows p b) (hpr : ∀ e, p e → r e) : a.Grows r b := by
  obtain ⟨es, hes, rfl⟩ := h
  exact ⟨es, fun e he => hpr e (hes e he), rfl⟩

theorem EventQueue.Grows.one {p : EventRecord → Prop} (q : EventQueue) {e : EventRecord} (h : p e) : q.Grows p (q.offer e) :=
  ⟨[e], by simpa using h, rfl⟩

/-- Records that joined: a first part of those offered, in their order; where one was lost, the queue is full with overrun set. -/
theorem EventQueue.foldl_offer_records (es : List EventRecord) (q : EventQueue) :
    ∃ n, (es.foldl EventQueue.offer q).records = q.records ++ es.take n
      ∧ (es.length ≤ n ∨ (32 ≤ (es.foldl EventQueue.offer q).records.length ∧ (es.foldl EventQueue.offer q).overrun = true)) := by
  induction es generalizing q with
  | nil => exact ⟨0, by simp, .inl (by simp)⟩
  | cons e es ih =>
    obtain ⟨n, hn, hfull⟩ := ih (q.offer e)
    rw [List.foldl_cons]
    rcases q.offer_cases e with ⟨-, he⟩ | ⟨hl, he⟩
    · refine ⟨n + 1, ?_, hfull.imp_left (by simp)⟩
      rw [hn, he]
      simp
    · have full : ∀ (fs : List EventRecord) (r : EventQueue), 32 ≤ r.records.length → r.overrun = true →
          (fs.foldl EventQueue.offer r).records = r.records ∧ (fs.foldl EventQueue.offer r).overrun = true := by
        intro fs
        induction fs with
        | nil => intro r _ ho; exact ⟨rfl, ho⟩
        | cons f fs ih' =>
          intro r hr ho
          rcases r.offer_cases f with ⟨hlt, -⟩ | ⟨-, hf⟩
          · omega
          · rw [List.foldl_cons, hf]
            exact ih' _ hr rfl
      obtain ⟨hrec, hover⟩ := full es (q.offer e) (by rw [he]; exact hl) (by rw [he])
      refine ⟨0, ?_, .inr ⟨?_, hover⟩⟩
      · rw [hrec, he]
        simp
      · rw [hrec, he]
        exact hl

theorem EventQueue.Grows.records {p : EventRecord → Prop} {q q' : EventQueue} (h : q.Grows p q') :
    ∃ new : List EventRecord, q'.records = q.records ++ new ∧ ∀ e ∈ new, p e := by
  obtain ⟨es, hes, rfl⟩ := h
  obtain ⟨n, hn, -⟩ := EventQueue.foldl_offer_records es q
  exact ⟨es.take n, hn, fun e he => hes e (List.mem_of_mem_take he)⟩

theorem EventQueue.Grows.records_isPrefix {p : EventRecord → Prop} {q q' : EventQueue} (h : q.Grows p q') : q.records <+: q'.records := by
  obtain ⟨new, hn, -⟩ := h.records
  exact ⟨new, hn.symm⟩

theorem EventQueue.Grows.length_le {p : EventRecord → Prop} {q q' : EventQueue} (h : q.Grows p q') : q.records.length ≤ q'.records.length :=
  h.records_isPrefix.length_le

/-- R188: a kind that is not offered is not told. -/
theorem EventQueue.Grows.silent {p : EventRecord → Prop} {q q' : EventQueue} (h : q.Grows p q') {kind : EventKind}
    (hp : ∀ e, p e → e.kind ≠ kind) : q.Silent q' kind := by
  obtain ⟨new, hn, hnew⟩ := h.records
  intro e he
  rw [hn, List.drop_left] at he
  exact hp e (hnew e he)

theorem EventQueue.Told.grows {p : EventRecord → Prop} {q a b : EventQueue} {kind : EventKind} {source : Nat} {stamp : BitVec 32} {value : Word}
    (h : q.Told a kind source stamp value) (k : a.Grows p b) : q.Told b kind source stamp value := by
  obtain ⟨es, -, rfl⟩ := k
  induction es generalizing a with
  | nil => exact h
  | cons e es ih => exact ih (h.offer e)

/-- What is told of one source is told of some source. -/
theorem EventQueue.Told.anySource {q a : EventQueue} {kind : EventKind} {source : Nat} {stamp : BitVec 32} {value : Word}
    (h : q.Told a kind source stamp value) : q.ToldAnySource a kind stamp value :=
  h.imp_left fun h => ⟨_, h, rfl, rfl, rfl⟩

/-- R188: the events of the operations are stamped with the cycle count as it stands. -/
theorem Device.raise_grows {p : EventRecord → Prop} (d : Device) (k : EventKind) (n : Nat) (v : Word)
    (h : p { kind := k, source := BitVec.ofNat 8 n, stamp := d.port.cycleCount, value := v }) : d.events.Grows p (d.raise k n v).events :=
  .one _ h

theorem Device.raiseList_grows {p : EventRecord → Prop} (es : List (EventKind × Nat × Word)) (d : Device)
    (h : ∀ e ∈ es, p { kind := e.1, source := BitVec.ofNat 8 e.2.1, stamp := d.port.cycleCount, value := e.2.2 }) :
    d.events.Grows p (d.raiseList es).events := by
  induction es generalizing d with
  | nil => exact .refl _
  | cons e es ih =>
    exact (d.raise_grows e.1 e.2.1 e.2.2 (h e List.mem_cons_self)).trans (ih (d.raise e.1 e.2.1 e.2.2) fun x hx => h x (List.mem_cons_of_mem _ hx))

theorem Device.raiseAll_grows {p : EventRecord → Prop} (n : Nat) (evs : List (EventKind × Word)) (d : Device)
    (h : ∀ e ∈ evs, p { kind := e.1, source := BitVec.ofNat 8 n, stamp := d.port.cycleCount, value := e.2 }) :
    d.events.Grows p (d.raiseAll n evs).events := by
  induction evs generalizing d with
  | nil => exact .refl _
  | cons e es ih =>
    exact (d.raise_grows e.1 n e.2 (h e List.mem_cons_self)).trans (ih (d.raise e.1 n e.2) fun x hx => h x (List.mem_cons_of_mem _ hx))

/-! ## The settlement at the queue -/

/-- The event kinds of a settlement. -/
def EventKind.ofSettlement : EventKind → Bool
  | .termChanged | .permitDropped => true
  | _ => false

theorem Device.changeTerm_grows (d : Device) (j : Fin 8) (v : Bool) :
    d.events.Grows (fun e => e.kind.ofSettlement = true) (d.changeTerm j v).events := by
  unfold Device.changeTerm
  dsimp only
  split
  · exact Device.raise_grows (d.setTerm j { d.terms[j] with value := v }) _ _ _ rfl
  · exact .refl _

/-- One pass over the terms: what is raised is TERM_CHANGED. -/
theorem foldl_settleTerm_grows (d0 : Device) (js : List (Fin 8)) (p : Device × TermSet) :
    p.1.events.Grows (fun e => e.kind.ofSettlement = true) (js.foldl (settleTerm d0) p).1.events := by
  induction js generalizing p with
  | nil => exact .refl _
  | cons j js ih =>
    refine .trans ?_ (ih (settleTerm d0 p j))
    rcases settleTerm_cases d0 p j with h | ⟨h, -⟩ | ⟨h, -⟩
    · rw [h]; exact .refl _
    · rw [h]; exact .refl _
    · rw [h]; exact p.1.changeTerm_grows j _

theorem settle_grows (d0 d : Device) (m : TermSet) : d.events.Grows (fun e => e.kind.ofSettlement = true) (settle d0 d m).1.events := by
  unfold settle
  exact foldl_settleTerm_grows d0 _ (d, m)

theorem mem_termEvents {d0 d : Device} {e : EventKind × Nat × Word} (h : e ∈ termEvents d0 d) : e.1 = .termChanged := by
  obtain ⟨j, -, rfl⟩ := List.mem_map.mp h
  rfl

theorem changedTerms_of_same {d0 d : Device} (h : d.terms = d0.terms) : changedTerms d0 d = 0 := by
  simp only [changedTerms, h, bne_self_eq_false, Bool.false_eq_true, if_false]
  induction List.finRange 8 with
  | nil => rfl
  | cons j js ih => exact ih

/-- R125, R131: an effect settles with TERM_CHANGED and PERMIT_DROPPED alone; where a term's own change is the effect, its TERM_CHANGED may be
raised anew with the others. -/
theorem settled_grows_from (d : Device) (e : Effect) (m : TermSet) : ∃ q, (q = e.dev.events ∨ q = d.events ∧ e.dev.terms ≠ d.terms)
    ∧ q.Grows (fun e => e.kind.ofSettlement = true) (settled d e m).events := by
  have hg := settle_grows d e.dev m
  have hc := settleAndDrop_cases d e.dev m
  unfold settled
  generalize (settle d e.dev m).1 = d1 at hg hc
  rcases hc with ⟨h, -⟩ | ⟨-, o, h, -⟩ | ⟨-, -, o, n, h, -⟩
  · rw [h]; exact ⟨_, .inl rfl, hg⟩
  · rw [h]; exact ⟨_, .inl rfl, hg⟩
  · refine ⟨if changedTerms d e.dev = 0 then e.dev.events else d.events, ?_, ?_⟩
    · split
      · exact .inl rfl
      · next hn => exact .inr ⟨rfl, fun ht => hn (changedTerms_of_same ht)⟩
    · rw [h]
      refine Device.raiseList_grows _ _ fun x hx => ?_
      rcases List.mem_append.mp hx with hx | hx
      · rw [mem_termEvents (List.mem_of_mem_take hx)]; rfl
      · rcases List.mem_cons.mp hx with rfl | hx
        · rfl
        · rw [mem_termEvents (List.mem_of_mem_drop hx)]; rfl

theorem settled_grows {d : Device} {e : Effect} (ht : e.dev.terms = d.terms) (m : TermSet) :
    e.dev.events.Grows (fun e => e.kind.ofSettlement = true) (settled d e m).events := by
  obtain ⟨q, rfl | ⟨-, hne⟩, hg⟩ := settled_grows_from d e m
  · exact hg
  · exact absurd ht hne

end Sys2Proof.Machine

/-! What an event at a zone leaves: the zone's record, the other zones, an idle Mailbox, and what it raises. -/

namespace Sys2Proof.Machine

/-- The event kinds of the zones, with that of a commit which a zone completes. -/
def EventKind.ofZones : EventKind → Bool
  | .zoneFault | .zoneHold | .zoneResume | .commitDone => true
  | _ => false

/-- What events at the zones leave: an idle Mailbox stands, and only events of the zones are raised. -/
structure AtZones (d d' : Device) : Prop where
  idle : d.mailbox.executing = none → d'.mailbox = d.mailbox
  told : d.events.Grows (fun e => e.kind.ofZones = true) d'.events

/-- What an event at one zone leaves. -/
structure AtZone (z : Fin 12) (d d' : Device) : Prop extends AtZones d d' where
  others : ∀ y, y ≠ z → d'.zones[y] = d.zones[y]

theorem AtZones.refl (d : Device) : AtZones d d := ⟨fun _ => rfl, .refl _⟩

theorem AtZones.trans {a b c : Device} (h : AtZones a b) (k : AtZones b c) : AtZones a c where
  idle hi := by
    have hb := h.idle hi
    rw [k.idle (by rw [hb]; exact hi), hb]
  told := h.told.trans k.told

theorem AtZone.refl (z : Fin 12) (d : Device) : AtZone z d d := { AtZones.refl d with others := fun _ _ => rfl }

theorem AtZone.trans {z : Fin 12} {a b c : Device} (h : AtZone z a b) (k : AtZone z b c) : AtZone z a c :=
  { h.toAtZones.trans k.toAtZones with others := fun y hy => (k.others y hy).trans (h.others y hy) }

theorem AtZone.of_zone (d : Device) (z : Fin 12) (x : Zone) : AtZone z d (d.setZone z x) :=
  { AtZones.refl d with others := fun _ hy => d.setZone_read_ne x hy }

theorem AtZone.of_raise (d : Device) (z : Fin 12) {k : EventKind} (hk : k.ofZones = true) (n : Nat) (v : Word) : AtZone z d (d.raise k n v) where
  idle _ := rfl
  told := d.raise_grows k n v hk
  others _ _ := rfl

theorem AtZone.of_choose (d : Device) (z : Fin 12) (n : Nat) : AtZone z d (d.choose n).2 := by
  obtain ⟨o, ho⟩ := d.choose_dev n
  rw [ho]
  exact { idle := fun _ => rfl, told := .refl _, others := fun _ _ => rfl }

theorem AtZone.of_raiseOption (d : Device) (z : Fin 12) (e : Option (EventKind × Nat × Word)) (he : ∀ x ∈ e, x.1.ofZones = true) :
    AtZone z d (d.raiseOption e) := by
  cases e with
  | none => exact .refl z d
  | some x => exact .of_raise d z (he x rfl) _ _

/-- R188: of two events raised in either order, the given one is told. -/
theorem Device.raiseEither_told (d : Device) (o : Option (EventKind × Nat × Word)) (e : EventKind × Nat × Word) :
    d.events.Told (d.raiseEither o e).events e.1 e.2.1 d.port.cycleCount e.2.2 := by
  have one : ∀ d' : Device, d'.events = d.events ∨ (∃ x, d'.events = d.events.offer x) → d'.port = d.port →
      d.events.Told (d'.raise e.1 e.2.1 e.2.2).events e.1 e.2.1 d.port.cycleCount e.2.2 := fun d' hq hp => by
    rw [Device.raise_events, hp]
    rcases hq with hq | ⟨x, hq⟩
    · rw [hq]
      exact EventQueue.told_offer d.events d.events _ _ _ _ (Nat.le_refl _)
    · rw [hq]
      exact EventQueue.told_offer d.events _ _ _ _ _ (EventQueue.Grows.length_le (EventQueue.Grows.one (p := fun _ => True) _ trivial))
  cases o with
  | none => exact one d (.inl rfl) rfl
  | some x =>
    obtain ⟨c, hc⟩ := d.choose_dev 2
    unfold Device.raiseEither
    simp only [hc]
    split
    · exact one _ (.inr ⟨_, rfl⟩) rfl
    · exact (one { d with choices := c } (.inl rfl) rfl).offer _

theorem AtZone.of_raiseEither (d : Device) (z : Fin 12) (o : Option (EventKind × Nat × Word)) (ho : ∀ x ∈ o, x.1.ofZones = true)
    (e : EventKind × Nat × Word) (he : e.1.ofZones = true) : AtZone z d (d.raiseEither o e) := by
  cases o with
  | none => exact .of_raise d z he _ _
  | some x =>
    unfold Device.raiseEither
    dsimp only
    split
    · exact ((AtZone.of_choose d z 2).trans (.of_raise _ z (ho x rfl) _ _)).trans (.of_raise _ z he _ _)
    · exact ((AtZone.of_choose d z 2).trans (.of_raise _ z he _ _)).trans (.of_raise _ z (ho x rfl) _ _)

/-! ## Marks -/

theorem Device.clearMark_event (d : Device) (z : Fin 12) (b : Bool) : ∀ x ∈ (d.clearMark z b).2, x.1 = .commitDone := by
  intro x hx
  unfold Device.clearMark at hx
  split at hx
  · dsimp only at hx
    split at hx
    · cases hx
    · split at hx
      · cases hx
      · cases hx; rfl
  · cases hx

theorem Device.completeCommit_idle {d : Device} (h : d.mailbox.executing = none) (r : Commit) :
    d.completeCommit r = { d with profile := { d.profile with commit := none } } := by
  unfold Device.completeCommit
  simp only [h]

theorem Device.completeCommit_zones (d : Device) (r : Commit) : (d.completeCommit r).zones = d.zones ∧ (d.completeCommit r).events = d.events := by
  unfold Device.completeCommit
  dsimp only
  split <;> exact ⟨rfl, rfl⟩

theorem Device.clearMark_at (d : Device) (z : Fin 12) (b : Bool) : AtZone z d (d.clearMark z b).1 := by
  unfold Device.clearMark
  split
  · dsimp only
    split
    · exact .of_zone d z _
    · next r _ =>
      split
      · exact (AtZone.of_zone d z { d.zones[z] with bumpless := false }).trans { idle := fun _ => rfl, told := .refl _, others := fun _ _ => rfl }
      · refine (AtZone.of_zone d z { d.zones[z] with bumpless := false }).trans ?_
        obtain ⟨hz, he⟩ := (d.setZone z { d.zones[z] with bumpless := false }).completeCommit_zones (r.cleared z b)
        exact { idle := fun hi => by rw [Device.completeCommit_idle hi], told := by rw [he]; exact .refl _, others := fun y _ => by rw [hz] }
  · exact .refl z d

/-- R63: the mark is cleared, and the rest of the zone's record stands. -/
theorem Device.clearMark_zone (d : Device) (z : Fin 12) (b : Bool) : (d.clearMark z b).1.zones[z] = { d.zones[z] with bumpless := false } := by
  unfold Device.clearMark
  split
  · dsimp only
    split
    · exact d.setZone_read z _
    · split
      · exact d.setZone_read z _
      · next r _ _ =>
        exact (congrArg (·[z]) (Device.completeCommit_zones _ (r.cleared z b)).1).trans (d.setZone_read z _)
  · next h =>
    have hb : d.zones[z].bumpless = false := by simpa using h
    rw [← hb]

theorem Device.endMark_at (d : Device) (z : Fin 12) (b : Bool) : AtZone z d (d.endMark z b) :=
  (d.clearMark_at z b).trans (.of_raiseOption _ z _ fun x hx => by rw [d.clearMark_event z b x hx]; rfl)

theorem Device.endMark_zone (d : Device) (z : Fin 12) (b : Bool) : (d.endMark z b).zones[z] = { d.zones[z] with bumpless := false } := by
  unfold Device.endMark
  rw [Device.raiseOption_zones, d.clearMark_zone z b]

/-! ## The entries -/

theorem Device.faultZone_at (d : Device) (z : Fin 12) (v : Word) : AtZone z d (d.faultZone z v) :=
  ((d.clearMark_at z false).trans (.of_zone _ z _)).trans
    (.of_raiseEither _ z _ (fun x hx => by rw [d.clearMark_event z false x hx]; rfl) _ rfl)

theorem Device.holdZone_at (d : Device) (z : Fin 12) (v : Word) : AtZone z d (d.holdZone z v) :=
  ((d.clearMark_at z false).trans (.of_zone _ z _)).trans
    (.of_raiseEither _ z _ (fun x hx => by rw [d.clearMark_event z false x hx]; rfl) _ rfl)

/-- R76, R86: a zone in FAULT, its mark released. -/
theorem Device.faultZone_zone (d : Device) (z : Fin 12) (v : Word) :
    (d.faultZone z v).zones[z] = { d.zones[z].toFault with bumpless := false } := by
  unfold Device.faultZone
  dsimp only
  rw [Device.raiseEither_zones, Device.setZone_read, d.clearMark_zone z false]
  rfl

/-- R82: a zone in HOLD, its mark released. -/
theorem Device.holdZone_zone (d : Device) (z : Fin 12) (v : Word) :
    (d.holdZone z v).zones[z] = { d.zones[z].toHold d.zones[z].mode.asReturn with bumpless := false } := by
  unfold Device.holdZone
  dsimp only
  rw [Device.raiseEither_zones, Device.setZone_read, d.clearMark_zone z false]
  rfl

/-- What the clearing of a mark leaves of the queue and of the count: nothing is raised yet. -/
theorem Device.clearMark_queue (d : Device) (z : Fin 12) (b : Bool) :
    (d.clearMark z b).1.events = d.events ∧ (d.clearMark z b).1.port = d.port := by
  unfold Device.clearMark
  split
  · dsimp only
    split
    · exact ⟨rfl, rfl⟩
    · split
      · exact ⟨rfl, rfl⟩
      · unfold Device.completeCommit
        dsimp only
        split <;> exact ⟨rfl, rfl⟩
  · exact ⟨rfl, rfl⟩

theorem Device.faultZone_told (d : Device) (z : Fin 12) (v : Word) :
    d.events.Told (d.faultZone z v).events .zoneFault z.val d.port.cycleCount v := by
  obtain ⟨hq, hp⟩ := d.clearMark_queue z false
  have h := Device.raiseEither_told ((d.clearMark z false).1.setZone z (d.clearMark z false).1.zones[z].toFault) (d.clearMark z false).2
    (.zoneFault, z.val, v)
  rw [Device.setZone_events, hq, Device.setZone_port, hp] at h
  exact h

theorem Device.holdZone_told (d : Device) (z : Fin 12) (v : Word) :
    d.events.Told (d.holdZone z v).events .zoneHold z.val d.port.cycleCount v := by
  obtain ⟨hq, hp⟩ := d.clearMark_queue z false
  have h := Device.raiseEither_told ((d.clearMark z false).1.setZone z
    ((d.clearMark z false).1.zones[z].toHold (d.clearMark z false).1.zones[z].mode.asReturn)) (d.clearMark z false).2 (.zoneHold, z.val, v)
  rw [Device.setZone_events, hq, Device.setZone_port, hp] at h
  exact h

theorem Device.purgeZone_at (d : Device) (z : Fin 12) : AtZone z d (d.purgeZone z) := (d.endMark_at z false).trans (.of_zone _ z _)

theorem Device.purgeZone_zone (d : Device) (z : Fin 12) : (d.purgeZone z).zones[z] = { d.zones[z].toPurge with bumpless := false } := by
  unfold Device.purgeZone
  dsimp only
  rw [Device.setZone_read, d.endMark_zone z false]
  rfl

theorem Device.resumeZone_at (d : Device) (z : Fin 12) : AtZone z d (d.resumeZone z) := by
  unfold Device.resumeZone
  dsimp only
  split
  · exact .refl z d
  · exact (AtZone.of_zone d z _).trans (.of_raise _ z rfl _ _)
  · exact (AtZone.of_zone d z _).trans (.of_raise _ z rfl _ _)

/-- R84: a zone that leaves HOLD is in its return mode; where that is PURGE, the purge begins. -/
theorem Device.resumeZone_zone (d : Device) (z : Fin 12) :
    (d.resumeZone z).zones[z] = d.zones[z] ∨ (d.resumeZone z).zones[z] = d.zones[z].toPurge
      ∨ ∃ m, m ≠ .purge ∧ (d.resumeZone z).zones[z] = { d.zones[z] with mode := m, returnMode := .none } := by
  unfold Device.resumeZone
  dsimp only
  split
  · exact .inl rfl
  · exact .inr (.inl (d.setZone_read z _))
  · next m h _ => exact .inr (.inr ⟨m, fun hm => h (by rw [hm]), d.setZone_read z _⟩)

theorem Device.entryCheck_at (d : Device) (z : Fin 12) : AtZone z d (d.entryCheck z) := by
  unfold Device.entryCheck
  split
  · exact d.faultZone_at z 1
  split
  · exact d.holdZone_at z 1
  split
  · exact d.holdZone_at z 2
  · exact .refl z d

theorem Device.enterPreheatSeeded_at (d : Device) (z : Fin 12) : AtZone z d (d.enterPreheatSeeded z) :=
  (AtZone.of_zone d z _).trans (Device.entryCheck_at _ z)

/-! ## The reactions -/

theorem Device.zoneSeesValidity_at (d : Device) (z : Fin 12) (v : Validity) (b : Bool) : AtZone z d (d.zoneSeesValidity z v b) := by
  unfold Device.zoneSeesValidity
  dsimp only
  split
  case h_1 | h_2 => exact d.holdZone_at z 1
  case h_3 | h_4 | h_5 => exact d.faultZone_at z 1
  case h_6 => exact .of_zone d z _
  case h_7 =>
    split
    · exact .refl z d
    · exact d.resumeZone_at z
  case h_8 => exact .refl z d

theorem Device.zoneSeesDemand_at (d : Device) (z : Fin 12) (b : Bool) : AtZone z d (d.zoneSeesDemand z b) := by
  unfold Device.zoneSeesDemand
  split
  case h_1 | h_2 => exact d.holdZone_at z 2
  case h_3 =>
    split
    · exact d.resumeZone_at z
    · exact .refl z d
  case h_4 => exact .refl z d

theorem Device.zoneSeesBreak_at (d : Device) (z : Fin 12) : AtZone z d (d.zoneSeesBreak z) := by
  unfold Device.zoneSeesBreak
  dsimp only
  split
  case h_1 | h_2 => exact d.purgeZone_at z
  case h_3 | h_4 => exact .of_zone d z _
  case h_5 => exact .refl z d

theorem Device.zoneTick_at (d : Device) (z : Fin 12) : AtZone z d (d.zoneTick z) := by
  unfold Device.zoneTick
  dsimp only
  split
  · split
    · exact .of_zone d z _
    split
    · exact d.faultZone_at z 3
    · exact d.enterPreheatSeeded_at z
  · exact .refl z d

theorem Device.zoneArrival_at (d : Device) (z : Fin 12) : AtZone z d (d.zoneArrival z) := by
  unfold Device.zoneArrival
  dsimp only
  split
  · split
    · exact d.faultZone_at z 2
    generalize (if d.zones[z].tracksNow (d.updateInput z) then { d.zones[z] with mode := .track } else d.zones[z]) = zone1
    split
    · exact (AtZone.of_zone d z _).trans (Device.endMark_at _ z true)
    · exact .of_zone d z _
  · exact .refl z d

theorem Device.zonesSeeBreak_at (d : Device) : AtZones d d.zonesSeeBreak := by
  have fold : ∀ (zs : List (Fin 12)) (d : Device), AtZones d (zs.foldl Device.zoneSeesBreak d) := by
    intro zs
    induction zs with
    | nil => exact AtZones.refl
    | cons z zs ih => exact fun d => (d.zoneSeesBreak_at z).toAtZones.trans (ih _)
  exact AtZones.trans (b := { d with breakMet := d.breakMet ||| d.zoneMaskOf fun z => z.mode == .preheat }) ⟨fun _ => rfl, .refl _⟩ (fold _ _)

end Sys2Proof.Machine

/-! What each event raises, what it leaves of an idle Mailbox, and which zone it moves. -/

namespace Sys2Proof.Machine

/-- The event kinds that an event of this kind raises at its own block. -/
def Job.raises (j : Job) (k : EventKind) : Bool :=
  match j with
  | .timeoutTick | .linkGood | .linkBad => k == .linkLost || k == .linkLocked || k == .frameBad
  | .channelTick _ | .channelSample _ _ => k == .channelHi || k == .channelLo || k == .channelStale || k == .channelFresh || k == .channelFailed
  | .zoneValidity _ _ | .zoneDemand _ _ | .zoneTick _ | .zoneArrival _ | .zonesBreak => k.ofZones
  | .deferredTerm _ => k == .termChanged
  | .hardRise _ _ | .softRise _ | .softFall | .monitorTick => k == .breakDeclared || k == .breakSuspect || k == .suspectCleared
  | .captureTrigger _ | .captureRecord _ => k == .captureTriggered || k == .captureFrozen
  | .permitDropped _ _ => k == .permitDropped
  | _ => false

/-! ## The kinds of the single operations -/

theorem Device.linkEvents_grow (d : Device) :
    d.events.Grows (fun e => Job.linkGood.raises e.kind = true) d.timeoutTick.events
      ∧ d.events.Grows (fun e => Job.linkGood.raises e.kind = true) d.linkGood.events
      ∧ d.events.Grows (fun e => Job.linkGood.raises e.kind = true) d.linkBad.events := by
  refine ⟨?_, ?_, ?_⟩
  · unfold Device.timeoutTick
    dsimp only
    split
    · exact .one _ rfl
    · exact .refl _
  · unfold Device.linkGood
    dsimp only
    split
    · exact .one _ rfl
    · exact .one _ rfl
    · exact .refl _
  · unfold Device.linkBad
    dsimp only
    split
    · exact .trans (b := d.events.offer ⟨.frameBad, 0, d.port.cycleCount, natWord (min 255 (d.port.badRun + 1))⟩) (.one _ rfl) (.one _ rfl)
    · exact .one _ rfl

/-- The event kinds of a channel. -/
def EventKind.ofChannels (k : EventKind) : Bool := Job.raises (.channelTick 0) k

theorem Channel.takeComparators_kinds (c : Channel) (hi lo : Bool) : ∀ e ∈ (c.takeComparators hi lo).2, e.1.ofChannels = true := by
  intro e he
  rcases List.mem_append.mp he with he | he
  all_goals
    split at he
    · rw [List.mem_singleton.mp he]; rfl
    · cases he

theorem Channel.fail_kinds (c : Channel) (cause : Word) : ∀ e ∈ (c.fail cause).2, e.1.ofChannels = true := by
  unfold Channel.fail
  split
  · simp
  · intro e he
    rcases List.mem_cons.mp he with rfl | he
    · rfl
    · exact Channel.takeComparators_kinds _ _ _ e he

theorem Channel.freshEvents_kinds (c : Channel) : ∀ e ∈ c.freshEvents, e.1.ofChannels = true := by
  intro e he
  unfold Channel.freshEvents at he
  split at he
  · split at he
    · rw [List.mem_singleton.mp he]; rfl
    · cases he
  · rw [List.mem_singleton.mp he]; rfl
  · cases he
  · cases he

theorem Channel.takeSample_kinds (c : Channel) (w : Word) : ∀ e ∈ (c.takeSample w).2, e.1.ofChannels = true := by
  unfold Channel.takeSample
  split
  · exact Channel.fail_kinds _ 1
  split
  · exact c.freshEvents_kinds
  · exact fun e he => (List.mem_append.mp he).elim (c.freshEvents_kinds e) (Channel.takeComparators_kinds _ _ _ e)

/-- What a tick raises: the loss of FRESH where its event is enabled, then what a failure raises. -/
theorem Channel.tick_events (c : Channel) : ∃ x : Channel, ∀ e ∈ c.tick.2, e.1 = .channelStale ∨ e ∈ (x.fail 2).2 := by
  unfold Channel.tick
  split
  · exact ⟨c, by simp⟩
  · dsimp only
    generalize (if c.validity = .fresh ∧ c.staleLimit ≤ min 65535 (c.age + 1) then
      ({ c with age := min 65535 (c.age + 1), validity := .stale } : Channel) else { c with age := min 65535 (c.age + 1) }) = x
    have hs : ∀ e ∈ (if (c.validity = .fresh ∧ c.staleLimit ≤ min 65535 (c.age + 1)) ∧ c.enableStale = true then
        [(EventKind.channelStale, toWord c.filtered)] else []), e.1 = .channelStale := fun e he => by
      split at he
      · rw [List.mem_singleton.mp he]
      · cases he
    split
    · exact ⟨x, fun e he => (List.mem_append.mp he).imp (hs e) id⟩
    · exact ⟨x, fun e he => .inl (hs e he)⟩

theorem Channel.tick_kinds (c : Channel) : ∀ e ∈ c.tick.2, e.1.ofChannels = true := by
  obtain ⟨x, hx⟩ := c.tick_events
  intro e he
  rcases hx e he with h | h
  · rw [h]; rfl
  · exact x.fail_kinds 2 e h

/-- The event kinds of the Break Monitor that a level or a tick can bring. -/
def EventKind.ofMonitor (k : EventKind) : Bool := Job.raises .softFall k

theorem Device.declareBreak_grows (d : Device) (c : BreakCause) (n : Nat) :
    d.events.Grows (fun e => e.kind.ofMonitor = true) (d.declareBreak c n).events := by
  unfold Device.declareBreak
  split
  · exact .one _ rfl
  · exact .refl _

theorem Device.monitorTick_grows (d : Device) : d.events.Grows (fun e => e.kind.ofMonitor = true) d.monitorTick.1.events := by
  unfold Device.monitorTick
  split
  · dsimp only
    split
    · exact Device.declareBreak_grows { d with monitor := d.monitor.countTick } _ _
    · exact .refl _
  · exact .refl _

theorem Device.levels_grow (d : Device) (n : Nat) :
    d.events.Grows (fun e => e.kind.ofMonitor = true) (d.enterSuspect n).events
      ∧ d.events.Grows (fun e => e.kind.ofMonitor = true) d.clearSuspect.events := by
  refine ⟨?_, ?_⟩
  · unfold Device.enterSuspect
    split
    · exact .one _ rfl
    · exact .refl _
  · unfold Device.clearSuspect
    split
    · exact .one _ rfl
    · exact .refl _

/-- The event kinds of the Capture Buffer that a trigger or a recording can bring. -/
def EventKind.ofCapture (k : EventKind) : Bool := Job.raises (.captureRecord true) k

theorem Device.captureTrigger_grows (d : Device) (n : Nat) : d.events.Grows (fun e => e.kind.ofCapture = true) (d.captureTrigger n).events := by
  unfold Device.captureTrigger
  split
  · dsimp only
    split
    · exact .trans (b := d.events.offer ⟨.captureTriggered, BitVec.ofNat 8 n, d.port.cycleCount, natWord d.capture.loadLatch.triggered.retained⟩)
        (.one _ rfl) (.one _ rfl)
    · exact .one _ rfl
  · exact .refl _

theorem Device.captureTriggers_grows (ns : List Nat) (d : Device) :
    d.events.Grows (fun e => e.kind.ofCapture = true) (ns.foldl Device.captureTrigger d).events := by
  induction ns generalizing d with
  | nil => exact .refl _
  | cons n ns ih => exact (d.captureTrigger_grows n).trans (ih _)

theorem Device.recordCompletion_grows (d : Device) (good : Bool) :
    d.events.Grows (fun e => e.kind.ofCapture = true) (d.recordCompletion good).events := by
  unfold Device.recordCompletion
  split
  · split
    · dsimp only
      split
      · exact .one _ rfl
      · exact .refl _
    · exact .refl _
  · exact .refl _

theorem Device.settleDeferred_grows (d : Device) (j : Fin 8) :
    d.events.Grows (fun e => e.kind = .termChanged) (d.settleDeferred j).events := by
  unfold Device.settleDeferred
  dsimp only
  split
  · split
    · exact .refl _
    · refine .mono (p := fun e => e.kind = .termChanged) ?_ fun _ h => h
      unfold Device.changeTerm
      dsimp only
      split
      · exact .one _ rfl
      · exact .refl _
  · exact .refl _

/-! ## Each event -/

/-- R188: an event raises the kinds of its block, and no event leaves the queue by it. -/
theorem act_grows (ws : List Job) (d : Device) (j : Job) : d.events.Grows (fun e => j.raises e.kind = true) (act ws d j).dev.events := by
  obtain ⟨htimeout, hgood, hbad⟩ := d.linkEvents_grow
  cases j
  case timeoutTick => exact htimeout
  case linkGood => exact hgood
  case linkBad => exact hbad
  case channelTick c => exact Device.raiseAll_grows _ _ d fun e he => Channel.tick_kinds _ e he
  case channelSample c w => exact Device.raiseAll_grows _ _ d fun e he => Channel.takeSample_kinds _ w e he
  case zoneValidity z v => exact (d.zoneSeesValidity_at z v _).told
  case zoneDemand z v => exact (d.zoneSeesDemand_at z v).told
  case zoneTick z => exact (d.zoneTick_at z).told
  case zoneArrival z => exact (d.zoneArrival_at z).told
  case zonesBreak => exact d.zonesSeeBreak_at.told
  case deferredTerm j => exact (d.settleDeferred_grows j).mono fun e he => by rw [he]; rfl
  case hardRise c n => exact d.declareBreak_grows c _
  case softRise n => exact (d.levels_grow _).1
  case softFall => exact (d.levels_grow 0).2
  case monitorTick => exact d.monitorTick_grows
  case captureTrigger ns => exact d.captureTriggers_grows ns
  case captureRecord good => exact d.recordCompletion_grows good
  case permitDropped => exact .one _ rfl
  case speedSample =>
    obtain ⟨s, hs⟩ := d.speedSample_frame
    exact (congrArg Device.events hs) ▸ .refl _
  case timerEdge k c b =>
    obtain ⟨t, ht⟩ := d.edgeTimer_frame k c b
    exact (congrArg Device.events ht) ▸ .refl _
  case timerClock k source =>
    obtain ⟨t, ht⟩ := d.clockTimer_frame k source
    exact (congrArg Device.events ht) ▸ .refl _
  all_goals exact .refl _

/-- R188: an event, once its change has settled. -/
theorem event_grows (ws : List Job) (d : Device) (j : Job) (m : TermSet) :
    d.events.Grows (fun e => j.raises e.kind = true ∨ e.kind.ofSettlement = true) (settled d (act ws d j) m).events := by
  obtain ⟨q, hq, hg⟩ := settled_grows_from d (act ws d j) m
  have hg := hg.mono (r := fun e => j.raises e.kind = true ∨ e.kind.ofSettlement = true) fun _ h => .inr h
  rcases hq with rfl | ⟨rfl, -⟩
  · exact ((act_grows ws d j).mono fun _ h => .inl h).trans hg
  · exact hg

/-- What an event has told stays told when its change settles. -/
theorem told_settled {ws : List Job} {d : Device} {j : Job} (hj : ∀ i, j ≠ .deferredTerm i) {q : EventQueue} {kind : EventKind} {source : Nat}
    {stamp : BitVec 32} {value : Word} (h : q.Told (act ws d j).dev.events kind source stamp value) (m : TermSet) :
    q.Told (settled d (act ws d j) m).events kind source stamp value :=
  h.grows (settled_grows (act_network hj) m)

theorem act_atZone (ws : List Job) (d : Device) {j : Job} {z : Fin 12} (h : j.block.zone = some z) : AtZone z d (act ws d j).dev := by
  cases j <;> simp only [Job.block, Block.zone, Option.some.injEq, reduceCtorEq] at h <;> subst h
  case zoneValidity y v => exact d.zoneSeesValidity_at y v (d.demandSeen ws y)
  case zoneDemand y v => exact d.zoneSeesDemand_at y v
  case zoneTick y => exact d.zoneTick_at y
  case zoneArrival y => exact d.zoneArrival_at y

theorem Job.zone_of_movesZones {j : Job} (h : j.movesZones = true) : j = .zonesBreak ∨ ∃ z, j.block.zone = some z := by
  cases j
  case zonesBreak => exact .inl rfl
  case zoneValidity z _ | zoneDemand z _ | zoneTick z | zoneArrival z => exact .inr ⟨z, rfl⟩
  all_goals cases h

theorem act_atZones (ws : List Job) (d : Device) {j : Job} (h : j.movesZones = true) : AtZones d (act ws d j).dev := by
  rcases Job.zone_of_movesZones h with rfl | ⟨z, hz⟩
  · simp only [act]
    exact d.zonesSeeBreak_at
  · exact (act_atZone ws d hz).toAtZones

/-- An event leaves an idle Mailbox as it is. -/
theorem event_mailbox (ws : List Job) {d : Device} (h : d.mailbox.executing = none) (j : Job) (m : TermSet) :
    (settled d (act ws d j) m).mailbox = d.mailbox := by
  cases hm : j.movesZones with
  | false => exact (settled_act_spares ws d j m).mailbox hm
  | true =>
    obtain ⟨_, _, _, _, hs⟩ := settled_frame d (act ws d j) m
    rw [hs]
    exact (act_atZones ws d hm).idle h

/-- The event is one at this zone, or the break that all zones see. -/
def Job.movesZone (z : Fin 12) (j : Job) : Bool := j.block.zone == some z || j == .zonesBreak

/-- An event that is none of a zone's leaves the zone's record. -/
theorem event_zone (ws : List Job) (d : Device) {j : Job} {z : Fin 12} (h : j.movesZone z = false) (m : TermSet) :
    (settled d (act ws d j) m).zones[z] = d.zones[z] := by
  obtain ⟨hz, hb⟩ := Bool.or_eq_false_iff.mp h
  cases hm : j.movesZones with
  | false => rw [(settled_act_spares ws d j m).zones hm]
  | true =>
    obtain ⟨_, _, _, _, hs⟩ := settled_frame d (act ws d j) m
    rw [hs]
    rcases Job.zone_of_movesZones hm with rfl | ⟨y, hy⟩
    · simp at hb
    · refine (act_atZone ws d hy).others z fun he => ?_
      rw [hy, he] at hz
      simp at hz

end Sys2Proof.Machine

/-! A unit that no cascade clocks, with a constant input: the clocks that come to it from outside are all that it takes. -/

namespace Sys2Proof.Machine

/-- The event is an edge or a clock at this unit. -/
def Job.movesUnit (k : Fin 6) (j : Job) : Bool := j.block == .timerEdge k || j.block == .timerClock k

/-- An event that is none of a unit's leaves the unit. -/
theorem event_unit (ws : List Job) (d : Device) {j : Job} {k : Fin 6} (h : j.movesUnit k = false) (m : TermSet) :
    (settled d (act ws d j) m).timers[k] = d.timers[k] := by
  cases hm : j.movesTimers with
  | false => rw [(settled_act_spares ws d j m).timers hm]
  | true =>
    obtain ⟨_, _, _, _, hs⟩ := settled_frame d (act ws d j) m
    rw [hs]
    obtain ⟨he, hc⟩ := Bool.or_eq_false_iff.mp h
    cases j
    case timerEdge i c b =>
      have hi : k ≠ i := fun hi => by rw [hi] at he; simp [Job.block] at he
      show (d.edgeTimer i c b).timers[k] = d.timers[k]
      unfold Device.edgeTimer
      dsimp only
      split
      · rfl
      · exact d.setTimer_read_ne _ hi
    case timerClock i source =>
      have hi : k ≠ i := fun hi => by rw [hi] at hc; simp [Job.block] at hc
      show (d.clockTimer i source).1.timers[k] = d.timers[k]
      unfold Device.clockTimer
      dsimp only
      split
      · rfl
      · exact d.setTimer_read_ne _ hi
    all_goals cases hm

/-- R107, R108: the unit after a clock from the source that its clock field names. -/
def Timer.clocked (t : Timer) (held : Bool) : Timer := if held then t else t.takeClock.1

theorem Device.clockTimer_unit {d : Device} {k : Fin 6} {source : ClockSource} (h : d.timers[k].clock = source) :
    (d.clockTimer k source).1.timers[k] = d.timers[k].clocked (d.level d.timers[k].hold) := by
  unfold Device.clockTimer Timer.clocked
  dsimp only
  by_cases hl : d.level d.timers[k].hold = true
  · rw [if_pos (.inr hl), if_pos hl]
  · rw [if_neg fun h' => h'.elim (fun hne => hne h) hl, if_neg hl]
    exact d.setTimer_read k _

/-- The unit reads a constant, and no other unit clocks it. -/
def Timer.Alone (t : Timer) : Prop := t.input.isFixed = true ∧ t.clock ≠ .cascade

theorem Timer.Alone.congr {t t' : Timer} (h : t.Alone) (w : t.SameWiring t') : t'.Alone := by
  obtain ⟨hi, hc⟩ := h
  exact ⟨by rwa [w.input], by rwa [w.clock]⟩

/-- R106, R107: no event hands on an edge or a clock to a unit that stands alone. -/
theorem handedOn_alone {ws : List Job} {d : Device} {j : Job} {k : Fin 6} (h : d.timers[k].Alone) (m : TermSet) :
    (handedOn d (act ws d j) m).filter (Job.movesUnit k) = [] := by
  rw [List.filter_eq_nil_iff]
  intro x hx hk
  obtain ⟨hin, hclock⟩ := h
  rcases Machine.mem_handedOn hx with hx | hx
  · have := mem_act_next hx
    cases this with
    | cascade i source hc =>
      have : nextUnit i = k := by simpa [Job.movesUnit, Job.block] using hk
      subst this
      exact hclock hc
    | _ => simp [Job.movesUnit, Job.block] at hk
  · cases hx with
    | edge i hi =>
      have : i = k := by simpa [Job.movesUnit, Job.block] using hk
      subst this
      refine hi (Device.level_isFixed ?_)
      rw [(settled_wiring ws d j m i).input]
      exact hin
    | _ => simp [Job.movesUnit, Job.block] at hk

theorem Timer.clocked_wiring (t : Timer) (b : Bool) : t.SameWiring (t.clocked b) := by
  unfold Timer.clocked
  split
  · exact .refl t
  · exact t.takeClock_wiring

/-- The unit after this many clocks, with its hold condition at this level. -/
def Timer.clockedTimes (t : Timer) (held : Bool) : Nat → Timer
  | 0 => t
  | n + 1 => (t.clockedTimes held n).clocked held

theorem Timer.clockedTimes_wiring (t : Timer) (held : Bool) (n : Nat) : t.SameWiring (t.clockedTimes held n) := by
  induction n with
  | zero => exact .refl t
  | succ n ih =>
    obtain ⟨hi, hc, hh⟩ := ih
    obtain ⟨hi', hc', hh'⟩ := (t.clockedTimes held n).clocked_wiring held
    exact ⟨hi'.trans hi, hc'.trans hc, hh'.trans hh⟩

/-- A unit that began as `x`, its hold condition at the level `held`, has taken as many clocks from outside as no longer wait. -/
structure UnitFollows (k : Fin 6) (x : Timer) (held : Bool) (taken : Nat) (d : Device) (ts : List Job) : Prop where
  waiting : ∀ j ∈ ts, j = .timerClock k x.clock
  unit : ∃ n, n + ts.length = taken ∧ d.timers[k] = x.clockedTimes held n

theorem UnitFollows.alone {k : Fin 6} {x : Timer} (hx : x.Alone) {held : Bool} {n : Nat} {d : Device} {ts : List Job}
    (h : UnitFollows k x held n d ts) : d.timers[k].Alone := by
  obtain ⟨-, m, -, h⟩ := h
  rw [h]
  exact hx.congr (x.clockedTimes_wiring _ m)

/-- R107, R108: a unit that stands alone takes the clocks that come to it from outside, and nothing else. -/
theorem unit_tracks {k : Fin 6} {x : Timer} (hx : x.Alone) {held : Bool} {taken : Nat} (hh : taken ≠ 0 → ∀ d : Device, d.level x.hold = held)
    {command : Device → Device} (hc : ∀ d, d.timers[k].Alone → (command d).timers[k] = d.timers[k]) :
    Tracks (fun _ _ => True) (Job.movesUnit k) command (UnitFollows k x held taken) where
  perm hp h := by
    obtain ⟨hw, n, hn, h⟩ := h
    exact ⟨fun j hj => hw j (hp.mem_iff.mpr hj), n, by rw [← hp.length_eq]; exact hn, h⟩
  choices o h := ⟨h.waiting, h.unit⟩
  act {ws d j n m} _ hj _ _ h := by
    have hnone : (if n = 0 then [] else (handedOn d (act ws d j) m).filter (Job.movesUnit k)) = [] := by
      split
      · rfl
      · exact handedOn_alone (h.alone hx) m
    rw [hnone, List.append_nil]
    obtain ⟨hw, i, hi, h⟩ := h
    cases hk : j.movesUnit k with
    | false =>
      rw [List.filter_cons_of_neg (by rw [hk]; simp)] at hw hi
      exact ⟨hw, i, hi, by rw [event_unit ws d hk m]; exact h⟩
    | true =>
      rw [List.filter_cons_of_pos hk] at hw hi
      refine ⟨fun y hy => hw y (List.mem_cons_of_mem _ hy), i + 1, by rw [← hi, List.length_cons]; omega, ?_⟩
      rw [hw j List.mem_cons_self]
      obtain ⟨hin, hclock, hhold⟩ := x.clockedTimes_wiring held i
      obtain ⟨_, _, _, _, hs⟩ := settled_frame d (act ws d (.timerClock k x.clock)) m
      rw [hs]
      have hstep := Device.clockTimer_unit (d := d) (k := k) (source := x.clock) (by rw [h, hclock])
      rw [h, hhold, hh (by rw [← hi, List.length_cons]; omega) d] at hstep
      exact hstep
  handsOn _ _ _ _ _ _ := trivial
  command {ws d n} _ _ _ h := by
    rw [List.filter_cons_of_neg (by simp [Job.movesUnit, Job.block])] at h
    have hs := hc d (h.alone hx)
    obtain ⟨hw, i, hi, hu⟩ := h
    exact ⟨hw, i, hi, hs.trans hu⟩

/-- R107: events that come together, at a unit that stands alone. -/
theorem Device.runRoots_unit {d : Device} {k : Fin 6} (hx : d.timers[k].Alone) {held : Bool} {command : Device → Device}
    (hc : ∀ d, d.timers[k].Alone → (command d).timers[k] = d.timers[k]) {roots : List Job} (hm : ∀ j ∈ roots, j.Modest)
    (hr : ∀ j ∈ roots.filter (Job.movesUnit k), j = .timerClock k d.timers[k].clock)
    (hh : (roots.filter (Job.movesUnit k)).length ≠ 0 → ∀ d' : Device, d'.level d.timers[k].hold = held) :
    (d.runRoots command roots).timers[k] = d.timers[k].clockedTimes held (roots.filter (Job.movesUnit k)).length := by
  obtain ⟨-, n, hn, h⟩ := (unit_tracks hx hh hc).runRoots d roots hm (fun _ _ => trivial) ⟨hr, 0, Nat.zero_add _, rfl⟩
  rw [h, ← hn]
  rfl

end Sys2Proof.Machine

/-! The events of a tick and of a completion, and a bad completion (O12). -/

namespace Sys2Proof.Machine

/-! ## The roots, unit by unit -/

theorem finRange_filter_beq {n : Nat} (p : Fin n → Bool) (k : Fin n) :
    ((List.finRange n).filter p).filter (· == k) = if p k then [k] else [] := by
  rw [List.filter_comm, List.filter_beq, List.count_eq_one_of_mem (List.nodup_finRange n) (List.mem_finRange k), List.replicate_one]
  cases h : p k <;> simp [h]

theorem Device.clockRoots_unit (d : Device) (source : ClockSource) (k : Fin 6) :
    (d.clockRoots source).filter (Job.movesUnit k) = if d.timers[k].clock == source then [.timerClock k source] else [] := by
  have hk : (Job.movesUnit k ∘ fun i => Job.timerClock i source) = (· == k) := by
    funext i
    show (Block.timerClock i == .timerEdge k || Block.timerClock i == .timerClock k) = (i == k)
    rw [beq_eq_false_iff_ne.mpr (by simp), Bool.false_or]
    by_cases h : i = k <;> simp [h]
  unfold Device.clockRoots
  rw [List.filter_map, hk, finRange_filter_beq]
  split <;> rfl

/-! ## Where nothing is delivered -/

/-- The event delivers what a frame or a tick brings to a channel, to the tracker, to the control word or to the break word. -/
def Job.delivers (j : Job) : Bool := j.ofChannel || j.ofTracker || j.block == .control || j.block == .breakWord

/-- What stands where nothing is delivered. -/
structure Undelivered (d d' : Device) : Prop where
  cycleCount : d'.port.cycleCount = d.port.cycleCount
  frame : d'.port.frame = d.port.frame
  slotMap : d'.slotMap = d.slotMap
  channels : d'.channels = d.channels
  speed : d'.speed = d.speed
  permitRequest : d'.port.permitRequest = d.port.permitRequest
  triggerRequest : d'.port.triggerRequest = d.port.triggerRequest
  lastRequest : d'.capture.lastRequest = d.capture.lastRequest
  notice : d'.monitor.lastNotice = d.monitor.lastNotice
  assertion : d'.monitor.lastAssert = d.monitor.lastAssert
  mailbox : d.mailbox.executing = none → d'.mailbox = d.mailbox

theorem Undelivered.refl (d : Device) : Undelivered d d := ⟨rfl, rfl, rfl, rfl, rfl, rfl, rfl, rfl, rfl, rfl, fun _ => rfl⟩

theorem Undelivered.trans {a b c : Device} (h : Undelivered a b) (k : Undelivered b c) : Undelivered a c where
  cycleCount := k.cycleCount.trans h.cycleCount
  frame := k.frame.trans h.frame
  slotMap := k.slotMap.trans h.slotMap
  channels := k.channels.trans h.channels
  speed := k.speed.trans h.speed
  permitRequest := k.permitRequest.trans h.permitRequest
  triggerRequest := k.triggerRequest.trans h.triggerRequest
  lastRequest := k.lastRequest.trans h.lastRequest
  notice := k.notice.trans h.notice
  assertion := k.assertion.trans h.assertion
  mailbox hi := by
    have hb := h.mailbox hi
    rw [k.mailbox (by rw [hb]; exact hi), hb]

theorem Capture.loadLatch_lastRequest (c : Capture) : c.loadLatch.lastRequest = c.lastRequest := by
  unfold Capture.loadLatch
  split <;> rfl

theorem Device.captureTriggers_lastRequest (ns : List Nat) (d : Device) :
    (ns.foldl Device.captureTrigger d).capture.lastRequest = d.capture.lastRequest := by
  induction ns generalizing d with
  | nil => rfl
  | cons n ns ih =>
    rw [List.foldl_cons, ih]
    unfold Device.captureTrigger
    split
    · have ht : d.capture.loadLatch.triggered.lastRequest = d.capture.lastRequest := by
        unfold Capture.triggered
        split <;> exact d.capture.loadLatch_lastRequest
      dsimp only
      split <;> exact ht
    · rfl

theorem Device.recordCompletion_lastRequest (d : Device) (good : Bool) :
    (d.recordCompletion good).capture.lastRequest = d.capture.lastRequest := by
  unfold Device.recordCompletion
  split
  · split
    · dsimp only
      split <;> rfl
    · rfl
  · rfl

/-- R18: only a control word changes the request that the Capture Buffer saw last. -/
theorem event_lastRequest (ws : List Job) (d : Device) {j : Job} (h : j.block ≠ .control) (m : TermSet) :
    (settled d (act ws d j) m).capture.lastRequest = d.capture.lastRequest := by
  cases hm : j.movesCapture with
  | false => rw [(settled_act_spares ws d j m).capture hm]
  | true =>
    rw [settled_capture]
    cases j
    case captureTrigger ns => exact d.captureTriggers_lastRequest ns
    case captureRecord good => exact d.recordCompletion_lastRequest good
    case controlWord => exact absurd rfl h
    all_goals cases hm

theorem event_undelivered (ws : List Job) (d : Device) {j : Job} (h : j.delivers = false) (m : TermSet) :
    Undelivered d (settled d (act ws d j) m) := by
  simp only [Job.delivers, Bool.or_eq_false_iff, beq_eq_false_iff_ne] at h
  obtain ⟨⟨⟨hchannel, htracker⟩, hcontrol⟩, hbreak⟩ := h
  have hs := settled_act_spares ws d j m
  have hsrc := settled_sources ws d (j := j) m fun w hw => hbreak (by rw [hw]; rfl)
  have hmc : j.movesChannels = false := by
    cases j
    case channelChange => cases hchannel
    all_goals rfl
  have hmr : j.movesControl = false := by
    cases j
    case controlWord => exact absurd rfl hcontrol
    all_goals rfl
  exact ⟨hs.cycleCount, hs.frame, hs.slotMap, hs.channels hmc, hs.speed htracker, hs.permitRequest hmr, hs.triggerRequest hmr,
    event_lastRequest ws d hcontrol m, hsrc.notice, hsrc.assertion, fun hi => event_mailbox ws hi j m⟩

/-- What delivers nothing hands on nothing that delivers. -/
theorem undelivered_handedOn {ws : List Job} {d : Device} {j x : Job} {m : TermSet} (h : j.delivers = false)
    (hx : x ∈ handedOn d (act ws d j) m) : x.delivers = false := by
  rcases Machine.mem_handedOn hx with hx | hx
  · cases mem_act_next hx with
    | tick | sample | loss | validity | request => cases h
    | cascade | zonesBreak | trigger => rfl
  · cases hx <;> rfl

/-- R188: and no event leaves the queue. -/
theorem undelivered_kept (d0 : Device) :
    KeptByEvent (fun d => Undelivered d0 d ∧ d0.events.records <+: d.events.records) fun j => j.delivers = false where
  choose d n h := by
    obtain ⟨o, ho⟩ := d.choose_dev n
    rw [ho]
    exact ⟨h.1.trans ⟨rfl, rfl, rfl, rfl, rfl, rfl, rfl, rfl, rfl, rfl, fun _ => rfl⟩, h.2⟩
  act ws d j m h hj := ⟨h.1.trans (event_undelivered ws d hj m), h.2.trans (event_grows ws d j m).records_isPrefix⟩
  handsOn ws d j m _ hj x hx := undelivered_handedOn hj hx

end Sys2Proof.Machine

/-! The link and its countdown over one moment: the one event of the Ring Port acts, and nothing else moves them. -/

namespace Sys2Proof.Machine

/-- The event kinds of the Ring Port's link. -/
def EventKind.ofLink : EventKind → Bool
  | .linkLost | .linkLocked | .frameBad => true
  | _ => false

/-- What the link reads and moves stands, and no event of its kinds is raised. -/
structure LinkStands (d d' : Device) : Prop where
  link : d'.port.link = d.port.link
  badRun : d'.port.badRun = d.port.badRun
  countdown : d'.port.timeoutCountdown = d.port.timeoutCountdown
  cycleCount : d'.port.cycleCount = d.port.cycleCount
  slotMap : d'.slotMap = d.slotMap
  told : d.events.Grows (fun e => e.kind.ofLink = false) d'.events

theorem LinkStands.refl (d : Device) : LinkStands d d := ⟨rfl, rfl, rfl, rfl, rfl, .refl _⟩

theorem LinkStands.trans {a b c : Device} (h : LinkStands a b) (k : LinkStands b c) : LinkStands a c :=
  ⟨k.link.trans h.link, k.badRun.trans h.badRun, k.countdown.trans h.countdown, k.cycleCount.trans h.cycleCount, k.slotMap.trans h.slotMap,
    h.told.trans k.told⟩

theorem LinkStands.of_choices (d : Device) (o : Choices) : LinkStands d { d with choices := o } := ⟨rfl, rfl, rfl, rfl, rfl, .refl _⟩

theorem EventKind.ofLink_cases {k : EventKind} (h : k.ofLink = true) : k = .linkLost ∨ k = .linkLocked ∨ k = .frameBad := by
  cases k
  case linkLost => exact .inl rfl
  case linkLocked => exact .inr (.inl rfl)
  case frameBad => exact .inr (.inr rfl)
  all_goals cases h

theorem Job.raises_noLink {j : Job} (h : j.movesLink = false) {k : EventKind} (hk : j.raises k = true ∨ k.ofSettlement = true) :
    k.ofLink = false := by
  rw [Bool.eq_false_iff]
  intro hl
  rcases EventKind.ofLink_cases hl with rfl | rfl | rfl
  all_goals
    rcases hk with hk | hk
    · cases j
      case timeoutTick | linkGood | linkBad => cases h
      all_goals cases hk
    · cases hk

/-- Another block's event. -/
theorem event_linkStands (ws : List Job) (d : Device) {j : Job} (h : j.movesLink = false) (m : TermSet) :
    LinkStands d (settled d (act ws d j) m) := by
  have hs := settled_act_spares ws d j m
  exact ⟨hs.link h, hs.badRun h, hs.countdown h, hs.cycleCount, hs.slotMap, (event_grows ws d j m).mono fun e he => Job.raises_noLink h he⟩

/-- What the settlement of an event leaves of the link. -/
theorem settled_linkStands (ws : List Job) (d : Device) {j : Job} (h : ∀ i, j ≠ .deferredTerm i) (m : TermSet) :
    LinkStands (act ws d j).dev (settled d (act ws d j) m) := by
  obtain ⟨t, p, q, o, hs⟩ := settled_frame d (act ws d j) m
  refine ⟨by rw [hs], by rw [hs], by rw [hs], by rw [hs], by rw [hs], (settled_grows (act_network h) m).mono fun e he => ?_⟩
  cases hk : e.kind <;> rw [hk] at he <;> first | rfl | cases he

/-- The link's one event `ℓ` still waits, or has acted. -/
def LinkFollows (ℓ : Job) (d0 d : Device) (ts : List Job) : Prop :=
  (ts = [ℓ] ∧ LinkStands d0 d) ∨ (ts = [] ∧ ∃ e, LinkStands d0 e ∧ LinkStands (act [] e ℓ).dev d)

theorem act_link {ℓ : Job} (h : ℓ.movesLink = true) (ws : List Job) (d : Device) : act ws d ℓ = act [] d ℓ := by
  cases ℓ
  case timeoutTick | linkGood | linkBad => rfl
  all_goals cases h

/-- The events of the Ring Port come from outside. -/
theorem link_handedOn {ws : List Job} {d : Device} {j : Job} {m : TermSet} : (handedOn d (act ws d j) m).filter Job.movesLink = [] := by
  rw [List.filter_eq_nil_iff]
  intro x hx hm
  have := fromOutside_of_mem_handedOn hx
  cases x
  case timeoutTick | linkGood | linkBad => cases this
  all_goals cases hm

theorem link_tracks {ℓ : Job} (hℓ : ℓ.movesLink = true) (d0 : Device) :
    Tracks (fun j _ => j ≠ .command) Job.movesLink id (LinkFollows ℓ d0) where
  perm hp h := by
    rcases h with ⟨rfl, h⟩ | ⟨rfl, h⟩
    · exact .inl ⟨(List.singleton_perm.mp hp).symm, h⟩
    · exact .inr ⟨List.nil_perm.mp hp, h⟩
  choices {d ts} o h := h.imp (fun ⟨hts, h⟩ => ⟨hts, h.trans (.of_choices d o)⟩) fun ⟨hts, e, he, h⟩ => ⟨hts, e, he, h.trans (.of_choices d o)⟩
  act {ws d j n m} _ _ _ _ h := by
    have hnone : (if n = 0 then [] else (handedOn d (act ws d j) m).filter Job.movesLink) = [] := by
      split
      · rfl
      · exact link_handedOn
    rw [hnone, List.append_nil]
    cases hk : j.movesLink with
    | false =>
      rw [List.filter_cons_of_neg (by rw [hk]; simp)] at h
      have hs := event_linkStands ws d hk m
      exact h.imp (fun ⟨hts, h⟩ => ⟨hts, h.trans hs⟩) fun ⟨hts, e, he, h⟩ => ⟨hts, e, he, h.trans hs⟩
    | true =>
      rw [List.filter_cons_of_pos hk] at h
      rcases h with ⟨hts, h⟩ | ⟨hts, -⟩
      · obtain ⟨rfl, hws⟩ := List.cons.inj hts
        refine .inr ⟨hws, d, h, ?_⟩
        rw [← act_link hℓ ws d]
        exact settled_linkStands ws d (fun i hi => by rw [hi] at hℓ; cases hℓ) m
      · cases hts
  handsOn _ _ _ _ x hx hc := by
    subst hc
    cases fromOutside_of_mem_handedOn hx
  command h := absurd rfl h

/-- One moment at the link: its one event acts, in between events of other blocks. -/
theorem Device.runRoots_link {d : Device} {ℓ : Job} (hℓ : ℓ.movesLink = true) {roots : List Job} (hm : ∀ j ∈ roots, j.Modest)
    (hc : Job.command ∉ roots) (hr : roots.filter Job.movesLink = [ℓ]) :
    ∃ e, LinkStands d e ∧ LinkStands (act [] e ℓ).dev (d.runRoots id roots) := by
  have h := (link_tracks hℓ d).runRoots d roots hm (fun j hj he => hc (he ▸ hj)) (.inl ⟨hr, .refl d⟩)
  rcases h with ⟨hts, -⟩ | ⟨-, h⟩
  · cases hts
  · exact h

end Sys2Proof.Machine

/-! A bad completion delivers nothing (O12). -/

namespace Sys2Proof.Machine

/-! ## Recording a completion -/

theorem Device.recordCompletion_idle {d : Device} (h : d.capture.state.recording = false) (good : Bool) : d.recordCompletion good = d :=
  if_neg (by rw [h]; simp)

theorem Capture.nextCounter_eq (c : Capture) : c.nextCounter = if c.counter + 1 < c.decimation then c.counter + 1 else 0 := by
  unfold Capture.nextCounter
  split <;> split <;> first | rfl | omega

/-- R170: between two recordings only the counter moves. -/
theorem Device.recordCompletion_between {d : Device} (h : d.capture.state.recording = true) (hc : d.capture.counter ≠ 0) (good : Bool) :
    (d.recordCompletion good).capture = { d.capture with counter := d.capture.nextCounter } := by
  unfold Device.recordCompletion
  rw [if_pos h, if_neg hc]

/-- R170: at counter 0 the record joins. -/
theorem Device.recordCompletion_adds {d : Device} (h : d.capture.state.recording = true) (hc : d.capture.counter = 0) (good : Bool) :
    (d.recordCompletion good).capture.records = pushRecord d.capture.records (d.makeRecord good)
      ∧ (d.recordCompletion good).capture.counter = d.capture.nextCounter := by
  unfold Device.recordCompletion
  rw [if_pos h, if_pos hc]
  dsimp only
  split <;> exact ⟨rfl, rfl⟩

/-- What a recording reads. -/
structure SameToRecord (d d' : Device) : Prop where
  cycleCount : d'.port.cycleCount = d.port.cycleCount
  lead : d'.speed.lead = d.speed.lead
  state : d'.monitor.state = d.monitor.state
  channels : d'.channels = d.channels
  capture : d'.capture = d.capture

theorem Device.makeRecord_congr {d d' : Device} (h : SameToRecord d d') (good : Bool) : d'.makeRecord good = d.makeRecord good := by
  obtain ⟨h1, h2, h3, h4, h5⟩ := h
  simp only [Device.makeRecord, h1, h2, h3, h4, h5]

theorem Device.recordCompletion_capture (d : Device) (good : Bool) : (d.recordCompletion good).capture =
    if d.capture.state.recording = true then
      if d.capture.counter = 0 then
        if (d.capture.add (d.makeRecord good)).freezeSource.isSome = true then
          { d.capture.add (d.makeRecord good) with counter := d.capture.nextCounter, state := .frozen }
        else { d.capture.add (d.makeRecord good) with counter := d.capture.nextCounter }
      else { d.capture with counter := d.capture.nextCounter }
    else d.capture := by
  unfold Device.recordCompletion
  split
  · split
    · dsimp only
      split
      · next h => rw [h]; rfl
      · next h => rw [h]; rfl
    · rfl
  · rfl

theorem Device.recordCompletion_congr {d d' : Device} (h : SameToRecord d d') (good : Bool) :
    (d'.recordCompletion good).capture = (d.recordCompletion good).capture := by
  rw [d.recordCompletion_capture, d'.recordCompletion_capture, Device.makeRecord_congr h, h.capture]

/-! ## The events of a bad completion -/

/-- The events of a bad completion while terms and timers read only constants. -/
inductive OfBadCompletion : Job → Prop
  | link : OfBadCompletion .linkBad
  | clock (k : Fin 6) (source : ClockSource) : OfBadCompletion (.timerClock k source)
  | record : OfBadCompletion (.captureRecord false)
  | permit (source reason : Nat) : OfBadCompletion (.permitDropped source reason)

theorem OfBadCompletion.plain {j : Job} (h : OfBadCompletion j) : (∀ i, j ≠ .deferredTerm i) ∧ j.delivers = false ∧ j.movesMonitor = false ∧ j ≠ .command := by
  cases h <;> simp [Job.delivers, Job.ofChannel, Job.ofTracker, Job.block, Job.movesMonitor]

theorem OfBadCompletion.handsOn {d : Device} (hu : d.Unread) {ws : List Job} {j x : Job} {m : TermSet} (h : OfBadCompletion j)
    (hx : x ∈ handedOn d (act ws d j) m) : OfBadCompletion x := by
  rcases hu.mem_handedOn h.plain.1 hx with hx | ⟨s, r, rfl⟩ | ⟨⟨w, rfl⟩ | ⟨l, rfl⟩, -⟩
  · cases hx with
    | cascade k source _ => exact .clock _ _
    | tick | sample | loss | validity | request => cases h
    | zonesBreak j hj => cases h <;> cases hj
    | trigger j hj => cases h <;> cases hj
  · exact .permit s r
  · cases h
  · cases h

/-- The recording of a completion: it still waits, or has been made; nothing else moves what it reads. -/
structure RecordFollows (d0 d : Device) (ts : List Job) : Prop where
  unread : d.Unread
  cycleCount : d.port.cycleCount = d0.port.cycleCount
  lead : d.speed.lead = d0.speed.lead
  state : d.monitor.state = d0.monitor.state
  channels : d.channels = d0.channels
  buffer : (ts = [.captureRecord false] ∧ d.capture = d0.capture) ∨ (ts = [] ∧ d.capture = (d0.recordCompletion false).capture)

theorem record_tracks (d0 : Device) : Tracks (fun j _ => OfBadCompletion j) (· == .captureRecord false) id (RecordFollows d0) where
  perm hp h := { h with
    buffer := h.buffer.imp (fun ⟨hts, hb⟩ => ⟨List.perm_singleton.mp (hts ▸ hp.symm), hb⟩) fun ⟨hts, hb⟩ => ⟨List.nil_perm.mp (hts ▸ hp), hb⟩ }
  choices o h := { h with unread := h.unread.congr ⟨rfl, fun _ => rfl⟩ }
  act {ws d j n m} hj _ _ _ h := by
    obtain ⟨hterm, hdel, hmon, -⟩ := hj.plain
    have hs := settled_act_spares ws d j m
    have hun := event_undelivered ws d hdel m
    have hnone : (if n = 0 then [] else (handedOn d (act ws d j) m).filter (· == .captureRecord false)) = [] := by
      split
      · rfl
      · refine List.filter_eq_nil_iff.mpr fun x hx he => ?_
        have := fromOutside_of_mem_handedOn hx
        rw [beq_iff_eq.mp he] at this
        cases this
    rw [hnone, List.append_nil]
    refine ⟨h.unread.kept ws hterm m, hs.cycleCount.trans h.cycleCount, by rw [hun.speed, h.lead], by rw [hs.monitor hmon, h.state],
      hun.channels.trans h.channels, ?_⟩
    have hb := h.buffer
    by_cases hk : j = .captureRecord false
    · rw [List.filter_cons_of_pos (by rw [hk]; simp)] at hb
      rcases hb with ⟨hts, hb⟩ | ⟨hts, -⟩
      · refine .inr ⟨(List.cons.inj hts).2, ?_⟩
        rw [settled_capture, hk]
        exact Device.recordCompletion_congr ⟨h.cycleCount, h.lead, h.state, h.channels, hb⟩ false
      · cases hts
    · rw [List.filter_cons_of_neg (by simpa using hk)] at hb
      have hcap : (settled d (act ws d j) m).capture = d.capture := hs.capture (by cases hj <;> first | rfl | exact absurd rfl hk)
      rw [hcap]
      exact hb
  handsOn {ws d j n m} hj _ _ h x hx := hj.handsOn h.unread hx
  command h := absurd rfl (OfBadCompletion.plain h).2.2.2

/-! ## The end of a frame -/

/-- R3, R13: the frame in passage ends good. -/
def Device.GoodEnd (d : Device) (loss : Bool) : Prop :=
  ∃ n, d.port.frame.passage = .cycle n ∧ d.port.frame.position = n + 34 ∧ d.port.frame.crcGood = true ∧ loss = false

theorem Device.endsGood_iff (d : Device) (loss : Bool) : d.endsGood loss = true ↔ d.GoodEnd loss := by
  unfold Device.endsGood Device.GoodEnd
  cases h : d.port.frame.passage
  case cycle n => simp [and_assoc]
  all_goals simp

/-- R14: the end of a frame that the device has served since its W0 is a completion. -/
theorem Device.endFrame_completes {d : Device} (hr : d.lines.rstn = true)
    (hp : d.port.frame.passage = .malformed ∨ ∃ n, d.port.frame.passage = .cycle n) (loss : Bool) :
    d.endFrame loss = d.complete (d.endsGood loss) := by
  unfold Device.endFrame
  rcases hp with hp | ⟨n, hp⟩ <;> simp only [hp] <;> exact if_pos hr

theorem Device.handStaged_none : Device.handStaged none = id := rfl

/-- R14, R17: the events of a bad completion. -/
def Device.badRoots (d : Device) : List Job := .linkBad :: (d.clockRoots .cycle ++ d.recordRoots false none)

theorem Device.complete_bad (d : Device) : d.complete false = (d.closeFrame false).runRoots id (d.closeFrame false).badRoots := by
  unfold Device.complete
  rw [← Device.handStaged_none]
  simp [Device.completionRoots, Device.badRoots, Device.cycleRoots]

theorem Device.recordRoots_none (d : Device) (good : Bool) :
    d.recordRoots good none = if d.capture.state.active = true then [.captureRecord good] else [] := by
  simp [Device.recordRoots]

theorem Device.mem_badRoots {d : Device} {j : Job} (h : j ∈ d.badRoots) : OfBadCompletion j := by
  rcases List.mem_cons.mp h with rfl | h
  · exact .link
  rcases List.mem_append.mp h with h | h
  · obtain ⟨k, -, rfl⟩ := List.mem_map.mp h
    exact .clock k .cycle
  · rw [d.recordRoots_none] at h
    split at h
    · rw [List.mem_singleton.mp h]; exact .record
    · cases h

theorem OfBadCompletion.modest {j : Job} (h : OfBadCompletion j) : j.Modest := by
  intro c x vs he
  subst he
  cases h

theorem Device.badRoots_link (d : Device) : d.badRoots.filter Job.movesLink = [.linkBad] := by
  have hclock : (d.clockRoots .cycle).filter Job.movesLink = [] := List.filter_eq_nil_iff.mpr fun x hx => by
    obtain ⟨k, -, rfl⟩ := List.mem_map.mp hx
    simp [Job.movesLink]
  unfold Device.badRoots
  rw [List.filter_cons_of_pos rfl, List.filter_append, hclock, d.recordRoots_none]
  split <;> rfl

theorem Device.badRoots_record (d : Device) :
    d.badRoots.filter (· == .captureRecord false) = if d.capture.state.active = true then [.captureRecord false] else [] := by
  have hclock : (d.clockRoots .cycle).filter (· == .captureRecord false) = [] := List.filter_eq_nil_iff.mpr fun x hx => by
    obtain ⟨k, -, rfl⟩ := List.mem_map.mp hx
    simp
  unfold Device.badRoots
  rw [List.filter_cons_of_neg (by simp), List.filter_append, hclock, d.recordRoots_none]
  split <;> simp

theorem Device.badRoots_unit (d : Device) (k : Fin 6) :
    d.badRoots.filter (Job.movesUnit k) = (d.clockRoots .cycle).filter (Job.movesUnit k) := by
  have hrec : (d.recordRoots false none).filter (Job.movesUnit k) = [] := by
    rw [d.recordRoots_none]
    split <;> simp [Job.movesUnit, Job.block]
  unfold Device.badRoots
  rw [List.filter_cons_of_neg (by simp [Job.movesUnit, Job.block]), List.filter_append, hrec, List.append_nil]

/-- R170: a buffer that records is active. -/
theorem CaptureState.active_of_recording {c : CaptureState} (h : c.recording = true) : c.active = true := by
  cases c <;> first | rfl | cases h

/-- R14, R170: the Capture Buffer after a bad completion, where nothing follows from it through terms or timers. -/
theorem Device.badCompletion_capture {d : Device} (hu : d.Unread) : (d.runRoots id d.badRoots).capture = (d.recordCompletion false).capture := by
  have h := (record_tracks d).runRoots d d.badRoots (fun j hj => (Device.mem_badRoots hj).modest) (fun j hj => Device.mem_badRoots hj)
    ⟨hu, rfl, rfl, rfl, rfl, by
      rw [d.badRoots_record]
      split
      · exact .inl ⟨rfl, rfl⟩
      · next ha => exact .inr ⟨rfl, by rw [Device.recordCompletion_idle (Bool.eq_false_iff.mpr fun hr => ha (CaptureState.active_of_recording hr))]⟩⟩
  rcases h.buffer with ⟨hts, -⟩ | ⟨-, hb⟩
  · cases hts
  · exact hb

end Sys2Proof.Machine

/-! Settles O12. -/

namespace Sys2Proof.Machine

/-! ## The link at a bad completion -/

theorem Device.linkBad_run (d : Device) : d.linkBad.port.badRun = min 255 (d.port.badRun + 1)
    ∧ d.linkBad.port.timeoutCountdown = d.port.timeoutCountdown ∧ d.linkBad.port.cycleCount = d.port.cycleCount := by
  unfold Device.linkBad
  dsimp only
  split <;> exact ⟨rfl, rfl, rfl⟩

/-- R19: a LOCKED link is lost where the bad run has reached its limit. -/
def Device.losesLink (d : Device) : Prop := d.port.link = .locked ∧ d.slotMap.badLimit ≤ min 255 (d.port.badRun + 1)

/-- FRAME_BAD joins the queue. -/
def Device.withFrameBad (d : Device) : EventQueue :=
  d.events.offer { kind := .frameBad, source := BitVec.ofNat 8 0, stamp := d.port.cycleCount, value := natWord (min 255 (d.port.badRun + 1)) }

theorem Device.linkBad_lost {d : Device} (h : d.losesLink) : d.linkBad.port.link = .lost
    ∧ d.linkBad.events = d.withFrameBad.offer { kind := .linkLost, source := BitVec.ofNat 8 0, stamp := d.port.cycleCount, value := 2 } := by
  unfold Device.linkBad
  dsimp only
  unfold Device.losesLink at h
  rw [if_pos h]
  exact ⟨rfl, rfl⟩

theorem Device.linkBad_kept {d : Device} (h : ¬d.losesLink) : d.linkBad.port.link = d.port.link ∧ d.linkBad.events = d.withFrameBad := by
  unfold Device.linkBad
  dsimp only
  unfold Device.losesLink at h
  rw [if_neg h]
  exact ⟨rfl, rfl⟩

/-- What the events of a bad completion leave of the link, and what they tell. -/
theorem Device.badCompletion_link (d : Device) : let t := d.runRoots id d.badRoots
    t.port.timeoutCountdown = d.port.timeoutCountdown ∧ t.port.badRun = min 255 (d.port.badRun + 1)
      ∧ d.events.Told t.events .frameBad 0 d.port.cycleCount (natWord (min 255 (d.port.badRun + 1)))
      ∧ (d.losesLink → t.port.link = .lost ∧ d.events.Told t.events .linkLost 0 d.port.cycleCount 2)
      ∧ (¬d.losesLink → t.port.link = d.port.link ∧ d.events.Silent t.events .linkLost) := by
  intro t
  obtain ⟨e, he, ht⟩ := Device.runRoots_link (d := d) (ℓ := .linkBad) rfl (fun j hj => (Device.mem_badRoots hj).modest)
    (fun hj => (Device.mem_badRoots hj).plain.2.2.2 rfl) d.badRoots_link
  replace ht : LinkStands e.linkBad t := ht
  have hloses : e.losesLink ↔ d.losesLink := by unfold Device.losesLink; rw [he.link, he.slotMap, he.badRun]
  have hframe : d.events.Told e.withFrameBad .frameBad 0 d.port.cycleCount (natWord (min 255 (d.port.badRun + 1))) := by
    unfold Device.withFrameBad
    rw [he.cycleCount, he.badRun]
    exact EventQueue.told_offer _ _ _ _ _ _ he.told.length_le
  obtain ⟨hrun, hcount, -⟩ := e.linkBad_run
  refine ⟨by rw [ht.countdown, hcount, he.countdown], by rw [ht.badRun, hrun, he.badRun], ?_, fun hl => ?_, fun hl => ?_⟩
  · refine EventQueue.Told.grows ?_ ht.told
    by_cases hl : e.losesLink
    · rw [(Device.linkBad_lost hl).2]; exact hframe.offer _
    · rw [(Device.linkBad_kept hl).2]; exact hframe
  · obtain ⟨hlost, hev⟩ := Device.linkBad_lost (hloses.mpr hl)
    refine ⟨by rw [ht.link, hlost], EventQueue.Told.grows ?_ ht.told⟩
    rw [hev, he.cycleCount]
    exact EventQueue.told_offer _ _ _ _ _ _ (he.told.length_le.trans (EventQueue.Grows.one (p := fun _ => True) _ trivial).length_le)
  · obtain ⟨hkept, hev⟩ := Device.linkBad_kept (fun h => hl (hloses.mp h))
    refine ⟨by rw [ht.link, hkept, he.link], ?_⟩
    have hne : ∀ r : EventRecord, r.kind.ofLink = false → r.kind ≠ .linkLost := fun r hr h => by rw [h] at hr; cases hr
    refine EventQueue.Grows.silent (p := fun r => r.kind ≠ .linkLost) ?_ fun _ h => h
    refine ((he.told.mono hne).trans ?_).trans (ht.told.mono hne)
    rw [hev]
    exact .one _ (by simp)

/-- R107: the units at a bad completion. -/
theorem Device.badCompletion_unit (d : Device) {k : Fin 6} (hx : d.timers[k].Alone) (hc : d.timers[k].clock = .cycle) {b : Bool}
    (hh : d.timers[k].hold = .fixed b) : (d.runRoots id d.badRoots).timers[k] = d.timers[k].clocked b := by
  have hr : d.badRoots.filter (Job.movesUnit k) = [.timerClock k d.timers[k].clock] := by
    rw [d.badRoots_unit k, d.clockRoots_unit .cycle k, hc]
    rfl
  rw [Device.runRoots_unit (command := id) (held := b) hx (fun _ _ => rfl) (fun j hj => (Device.mem_badRoots hj).modest) (by rw [hr]; simp)
    (fun _ d' => by rw [hh]; rfl), hr]
  rfl

/-- R166, R170: the Capture Buffer after a recording. -/
theorem Device.recordCompletion_marked (d : Device) (good : Bool) : (d.makeRecord good).mark = true ↔
    d.capture.state = .postfill ∧ d.capture.markOwed = true := by
  simp [Device.makeRecord]

theorem CaptureState.recording_iff (c : CaptureState) : c.recording = true ↔ c = .running ∨ c = .postfill := by
  cases c <;> simp [CaptureState.recording]

/-- Settles O12: what a bad completion is at each block, event by event. -/
theorem badFrameDeliversNothing : Obligations.BadFrameDeliversNothing := by
  intro skipped loss s d good hr hp hg
  have hend : d.endFrame loss = (d.closeFrame false).runRoots id (d.closeFrame false).badRoots := by
    rw [Device.endFrame_completes hr hp, Bool.eq_false_iff.mpr fun h => hg ((d.endsGood_iff loss).mp h), d.complete_bad]
  obtain ⟨hund, hprefix⟩ := Device.runRoots_keeps (command := id) (undelivered_kept (d.closeFrame false)) (fun _ h => h) (d.closeFrame false)
    (d.closeFrame false).badRoots ⟨.refl _, List.prefix_rfl⟩ fun j hj => (Device.mem_badRoots hj).plain.2.1
  obtain ⟨hcountdown, hrun, hframe, hlost, hkept⟩ := (d.closeFrame false).badCompletion_link
  have hunit : ∀ (k : Fin 6) (b : Bool), d.timers[k].clock = .cycle → d.timers[k].input.isFixed = true → d.timers[k].hold = .fixed b →
      ((d.closeFrame false).runRoots id (d.closeFrame false).badRoots).timers[k] = d.timers[k].clocked b := fun k b hk hin hh =>
    (d.closeFrame false).badCompletion_unit ⟨hin, fun hc => by rw [show d.timers[k].clock = .cascade from hc] at hk; cases hk⟩ hk hh
  have hcapture := fun h => (d.closeFrame false).badCompletion_capture h
  rw [← hend] at hund hprefix hcountdown hrun hframe hlost hkept
  simp only [← hend] at hunit hcapture
  refine ⟨{ s with dev := d.endFrame loss }, exec_cycleCompletion skipped loss s, hund.cycleCount, hcountdown, hrun,
    congrArg FramePassage.staging hund.frame, congrArg FramePassage.passage hund.frame, hund.channels,
    hund.speed, hund.permitRequest, hund.triggerRequest, hund.lastRequest, hund.notice, hund.assertion, fun hi => hund.mailbox hi, fun hl => ?_,
    fun hl => (hkept fun h => hl h.1).1, hprefix, hframe, fun hl hb => (hlost ⟨hl, hb⟩).2.anySource, fun hl => (hkept fun h => ?_).2,
    fun k hk hin => ⟨fun hh => ?_, fun hh => ?_⟩, fun hu => ?_⟩
  · split
    · next hb => exact (hlost ⟨hl, hb⟩).1
    · next hb => exact (hkept fun h => hb h.2).1.trans hl
  · exact hl.elim (fun hne => hne h.1) fun hlt => absurd h.2 (Nat.not_le.mpr hlt)
  · exact hunit k false hk hin hh
  · exact hunit k true hk hin hh
  · have hcap := hcapture (hu.congr ⟨rfl, fun _ => rfl⟩)
    intro x recording
    have hrec : recording ↔ (d.closeFrame false).capture.state.recording = true := (CaptureState.recording_iff _).symm
    refine ⟨fun h h0 => ?_, fun h => ?_, fun h h0 => ?_, fun h => ?_⟩
    · obtain ⟨hadd, -⟩ := Device.recordCompletion_adds (hrec.mp h) h0 false
      exact ⟨(d.closeFrame false).makeRecord false, by rw [hcap]; exact hadd, rfl, rfl, rfl, rfl, Device.recordCompletion_marked _ _, rfl⟩
    · rw [hcap, ← Capture.nextCounter_eq]
      by_cases h0 : x.counter = 0
      · exact (Device.recordCompletion_adds (hrec.mp h) h0 false).2
      · rw [Device.recordCompletion_between (hrec.mp h) h0]
        rfl
    · rw [hcap, Device.recordCompletion_between (hrec.mp h) h0]
      exact ⟨rfl, rfl⟩
    · rw [hcap, Device.recordCompletion_idle (Bool.eq_false_iff.mpr fun hr => h (hrec.mpr hr))]
      rfl

end Sys2Proof.Machine

/-! A channel over one moment: the tick or the sample that comes to it, and the change of its record which that announces. -/

namespace Sys2Proof.Machine

/-! ## What an event hands on, kind by kind -/

/-- Kinds that are no reaction are handed on by the event itself. -/
theorem handedOn_filter {tok : Job → Bool} (h : ∀ d0 d x, Reaction d0 d x → tok x = false) (d : Device) (e : Effect) (m : TermSet) :
    (handedOn d e m).filter tok = e.next.filter tok := by
  have none : ∀ xs : List Job, (∀ x ∈ xs, Reaction d (settled d e m) x) → xs.filter tok = [] := fun xs hxs =>
    List.filter_eq_nil_iff.mpr fun x hx => by simp [h _ _ x (hxs x hx)]
  unfold handedOn directReactions termReactions
  simp only [List.filter_append]
  rw [none _ fun x hx => mem_timerReactions hx, none _ fun x hx => mem_hardReactions hx,
    none _ fun x hx => mem_timerReactions hx, none _ fun x hx => mem_demandReactions hx, none _ fun x hx => mem_hardReactions hx,
    none _ fun x hx => mem_softReactions hx, none _ fun x hx => mem_captureReactions hx,
    none (leftToRaise d e m) fun x hx => by obtain ⟨s, r, -, rfl⟩ := mem_leftToRaise hx; exact .permit s r]
  simp

/-- How many events follow for certain, one from another: a tick or a sample announces its change, and zones and tracker see the change. -/
def Job.follow : Job → Nat
  | .channelTick _ | .channelSample _ _ => 2
  | .channelChange _ _ _ => 1
  | _ => 0

theorem follow_handedOn {ws : List Job} {d : Device} {j x : Job} {m : TermSet} {n : Nat} (h : j.follow ≤ n + 1)
    (hx : x ∈ handedOn d (act ws d j) m) : x.follow ≤ n := by
  rcases Machine.mem_handedOn hx with hx | hx
  · cases mem_act_next hx with
    | tick | sample => exact Nat.le_of_succ_le_succ h
    | _ => exact Nat.zero_le n
  · cases hx <;> exact Nat.zero_le n

/-! ## One channel -/

/-- The event is a tick or a sample at this channel, or the change that one announces. -/
def Job.atChannel (c : Fin 32) : Job → Bool
  | .channelTick i | .channelSample i _ | .channelChange i _ _ => i == c
  | _ => false

/-- The event brings the channel from `x` to `x'`, through these validities. -/
structure Job.Brings (c : Fin 32) (x x' : Channel) (vs : List Validity) (r : Job) : Prop where
  next : ∀ ws (d : Device), d.channels[c] = x → (act ws d r).next = [.channelChange c x' vs]
  announces : r.follow = 2

theorem Job.brings_tick (c : Fin 32) (x : Channel) : Job.Brings c x x.tick.1 x.tickValidities (.channelTick c) :=
  ⟨fun ws d h => by rw [← h]; rfl, rfl⟩

theorem Job.brings_sample (c : Fin 32) (x : Channel) (w : Word) :
    Job.Brings c x (x.takeSample w).1 (sampleValidities x w) (.channelSample c w) := ⟨fun ws d h => by rw [← h]; rfl, rfl⟩

/-- Another event leaves the channel's record. -/
theorem event_channel (ws : List Job) (d : Device) {j : Job} {c : Fin 32} (h : j.atChannel c = false ∨ j.follow = 2) (m : TermSet) :
    (settled d (act ws d j) m).channels[c] = d.channels[c] := by
  cases hm : j.movesChannels with
  | false => rw [(settled_act_spares ws d j m).channels hm]
  | true =>
    obtain ⟨_, _, _, _, hs⟩ := settled_frame d (act ws d j) m
    rw [hs]
    cases j
    case channelChange i x vs =>
      have hi : c ≠ i := fun hi => by
        rcases h with h | h
        · rw [hi] at h; simp [Job.atChannel] at h
        · cases h
      exact d.setChannel_read_ne x hi
    all_goals cases hm

theorem channelChange_read (ws : List Job) (d : Device) (c : Fin 32) (x : Channel) (vs : List Validity) (m : TermSet) :
    (settled d (act ws d (.channelChange c x vs)) m).channels[c] = x := by
  obtain ⟨_, _, _, _, hs⟩ := settled_frame d (act ws d (.channelChange c x vs)) m
  rw [hs]
  exact d.setChannel_read c x

theorem atChannel_handedOn (ws : List Job) (d : Device) (j : Job) (m : TermSet) (c : Fin 32) :
    (handedOn d (act ws d j) m).filter (Job.atChannel c) = (act ws d j).next.filter (Job.atChannel c) :=
  handedOn_filter (fun _ _ _ h => by cases h <;> rfl) d _ m

/-- What no channel's event hands on is none either. -/
theorem atChannel_next {ws : List Job} {d : Device} {j : Job} {c : Fin 32} (h : j.atChannel c = false ∨ j.follow ≠ 2) :
    (act ws d j).next.filter (Job.atChannel c) = [] := by
  refine List.filter_eq_nil_iff.mpr fun x hx hc => ?_
  cases mem_act_next hx with
  | tick i | sample i w =>
    rcases h with h | h
    · exact absurd hc (by rw [show Job.atChannel c (.channelChange i _ _) = _ from h]; simp)
    · exact h rfl
  | _ => cases hc

/-- The channel's tick or sample still waits, or the change that it announces, or the channel has taken it. -/
def ChannelFollows (c : Fin 32) (x x' : Channel) (vs : List Validity) (d : Device) (ts : List Job) : Prop :=
  (∃ r, ts = [r] ∧ r.Brings c x x' vs ∧ d.channels[c] = x) ∨ (ts = [.channelChange c x' vs] ∧ d.channels[c] = x)
    ∨ (ts = [] ∧ d.channels[c] = x')

theorem ChannelFollows.keep {c : Fin 32} {x x' : Channel} {vs : List Validity} {d d' : Device} {ts : List Job}
    (hd : d'.channels[c] = d.channels[c]) (h : ChannelFollows c x x' vs d ts) : ChannelFollows c x x' vs d' ts := by
  unfold ChannelFollows at h ⊢
  rw [hd]
  exact h

theorem channel_tracks (c : Fin 32) (x x' : Channel) (vs : List Validity) :
    Tracks (fun j n => j ≠ .command ∧ j.follow ≤ n) (Job.atChannel c) id (ChannelFollows c x x' vs) where
  perm hp h := by
    rcases h with ⟨r, rfl, h⟩ | ⟨rfl, h⟩ | ⟨rfl, h⟩
    · exact .inl ⟨r, (List.singleton_perm.mp hp).symm, h⟩
    · exact .inr (.inl ⟨(List.singleton_perm.mp hp).symm, h⟩)
    · exact .inr (.inr ⟨List.nil_perm.mp hp, h⟩)
  choices o h := h
  act {ws d j n m} hj _ _ _ h := by
    rw [atChannel_handedOn]
    cases hk : j.atChannel c with
    | false =>
      rw [List.filter_cons_of_neg (by rw [hk]; simp)] at h
      rw [atChannel_next (.inl hk), ite_self, List.append_nil]
      exact h.keep (event_channel ws d (.inl hk) m)
    | true =>
      rw [List.filter_cons_of_pos hk] at h
      rcases h with ⟨r, hts, hr, h⟩ | ⟨hts, h⟩ | ⟨hts, -⟩
      · obtain ⟨rfl, hws⟩ := List.cons.inj hts
        have hn : n ≠ 0 := fun h0 => by have := hj.2; rw [hr.announces, h0] at this; omega
        rw [hr.next ws d h, hws, if_neg hn]
        refine .inr (.inl ⟨?_, (event_channel ws d (.inr hr.announces) m).trans h⟩)
        simp [Job.atChannel]
      · obtain ⟨rfl, hws⟩ := List.cons.inj hts
        rw [atChannel_next (.inr (by simp [Job.follow])), hws, ite_self]
        exact .inr (.inr ⟨rfl, channelChange_read ws d c x' vs m⟩)
      · cases hts
  handsOn {ws d j n m} hj _ _ _ y hy := ⟨fun hc => (by subst hc; cases fromOutside_of_mem_handedOn hy), follow_handedOn hj.2 hy⟩
  command h := absurd rfl h.1

end Sys2Proof.Machine

/-! A purge over one tick. -/

namespace Sys2Proof.Machine

/-- What leaves a purge to its ticks: a zone that purges goes on, and one that begins to purge has its whole time before it. -/
structure Zone.KeepsPurge (x y : Zone) : Prop where
  time : y.purgeTime = x.purgeTime
  goesOn : x.mode = .purge → y.mode = .purge ∧ y.purgeCount = x.purgeCount ∧ y.u = x.u
  begins : x.mode ≠ .purge → y.mode = .purge → y.purgeCount = y.purgeTime

theorem Zone.KeepsPurge.refl (x : Zone) : x.KeepsPurge x := ⟨rfl, fun h => ⟨h, rfl, rfl⟩, fun h h' => absurd h' h⟩

theorem Zone.KeepsPurge.trans {x y z : Zone} (h : x.KeepsPurge y) (k : y.KeepsPurge z) : x.KeepsPurge z where
  time := k.time.trans h.time
  goesOn hx := by
    obtain ⟨hy, hc, hu⟩ := h.goesOn hx
    obtain ⟨hz, hc', hu'⟩ := k.goesOn hy
    exact ⟨hz, hc'.trans hc, hu'.trans hu⟩
  begins hx hz := by
    by_cases hy : y.mode = .purge
    · rw [(k.goesOn hy).2.1, k.time]
      exact h.begins hx hy
    · exact k.begins hy hz

/-- Outside a purge, a move to a mode that is not PURGE. -/
theorem Zone.KeepsPurge.outside {x y : Zone} (hx : x.mode ≠ .purge) (hy : y.mode ≠ .purge) (ht : y.purgeTime = x.purgeTime) : x.KeepsPurge y :=
  ⟨ht, fun h => absurd h hx, fun _ h => absurd h hy⟩

/-- Outside a purge, the begin of one. -/
theorem Zone.KeepsPurge.toPurge {x : Zone} (hx : x.mode ≠ .purge) (b : Bool) : x.KeepsPurge { x.toPurge with bumpless := b } :=
  ⟨rfl, fun h => absurd h hx, fun _ _ => rfl⟩

theorem Device.faultZone_keepsPurge {d : Device} {z : Fin 12} (h : d.zones[z].mode ≠ .purge) (v : Word) :
    d.zones[z].KeepsPurge (d.faultZone z v).zones[z] := by
  rw [d.faultZone_zone z v]
  exact .outside h Mode.noConfusion rfl

theorem Device.holdZone_keepsPurge {d : Device} {z : Fin 12} (h : d.zones[z].mode ≠ .purge) (v : Word) :
    d.zones[z].KeepsPurge (d.holdZone z v).zones[z] := by
  rw [d.holdZone_zone z v]
  exact .outside h Mode.noConfusion rfl

theorem Device.resumeZone_keepsPurge {d : Device} {z : Fin 12} (h : d.zones[z].mode ≠ .purge) :
    d.zones[z].KeepsPurge (d.resumeZone z).zones[z] := by
  rcases d.resumeZone_zone z with hz | hz | ⟨m, hm, hz⟩
  · rw [hz]; exact .refl _
  · rw [hz]; exact .toPurge h _
  · rw [hz]; exact .outside h hm rfl

theorem Device.zoneSeesValidity_keepsPurge (d : Device) (z : Fin 12) (v : Validity) (b : Bool) :
    d.zones[z].KeepsPurge (d.zoneSeesValidity z v b).zones[z] := by
  unfold Device.zoneSeesValidity
  dsimp only
  split
  case h_1 hm | h_2 hm => exact d.holdZone_keepsPurge (by rw [hm]; exact Mode.noConfusion) 1
  case h_3 hm | h_4 hm | h_5 hm => exact d.faultZone_keepsPurge (by rw [hm]; exact Mode.noConfusion) 1
  case h_6 hm =>
    rw [Device.setZone_read]
    exact ⟨rfl, fun h => ⟨h, rfl, rfl⟩, fun h => absurd hm h⟩
  case h_7 hm =>
    split
    · exact .refl _
    · exact d.resumeZone_keepsPurge (by rw [hm]; exact Mode.noConfusion)
  case h_8 => exact .refl _

theorem Device.zoneSeesDemand_keepsPurge (d : Device) (z : Fin 12) (b : Bool) : d.zones[z].KeepsPurge (d.zoneSeesDemand z b).zones[z] := by
  unfold Device.zoneSeesDemand
  split
  case h_1 hm | h_2 hm => exact d.holdZone_keepsPurge (by rw [hm]; exact Mode.noConfusion) 2
  case h_3 hm =>
    split
    · exact d.resumeZone_keepsPurge (by rw [hm]; exact Mode.noConfusion)
    · exact .refl _
  case h_4 => exact .refl _

theorem Device.zoneSeesBreak_keepsPurge (d : Device) (z : Fin 12) : d.zones[z].KeepsPurge (d.zoneSeesBreak z).zones[z] := by
  unfold Device.zoneSeesBreak
  dsimp only
  split
  case h_1 hm | h_2 hm =>
    rw [d.purgeZone_zone z]
    exact .toPurge (by rw [hm]; exact Mode.noConfusion) _
  case h_3 hm _ | h_4 hm _ =>
    rw [Device.setZone_read]
    exact .outside (by rw [hm]; exact Mode.noConfusion) (by show d.zones[z].mode ≠ _; rw [hm]; exact Mode.noConfusion) rfl
  case h_5 => exact .refl _

theorem Device.zonesSeeBreak_keepsPurge (d : Device) (z : Fin 12) : d.zones[z].KeepsPurge d.zonesSeeBreak.zones[z] := by
  have fold : ∀ (zs : List (Fin 12)) (d : Device), d.zones[z].KeepsPurge (zs.foldl Device.zoneSeesBreak d).zones[z] := by
    intro zs
    induction zs with
    | nil => exact fun d => .refl _
    | cons y zs ih =>
      intro d
      refine .trans ?_ (ih (d.zoneSeesBreak y))
      by_cases hy : z = y
      · subst hy
        exact d.zoneSeesBreak_keepsPurge z
      · rw [(d.zoneSeesBreak_at y).others z hy]
        exact .refl _
  exact fold _ { d with breakMet := d.breakMet ||| d.zoneMaskOf fun z => z.mode == .preheat }

theorem Device.zoneArrival_keepsPurge (d : Device) (z : Fin 12) : d.zones[z].KeepsPurge (d.zoneArrival z).zones[z] := by
  unfold Device.zoneArrival
  dsimp only
  split
  · next hm =>
    have hnot : d.zones[z].mode ≠ .purge := fun h => by rw [h] at hm; simp at hm
    split
    · exact d.faultZone_keepsPurge hnot 2
    have hone : ∀ zone1 : Zone, zone1.mode ≠ .purge → zone1.purgeTime = d.zones[z].purgeTime → d.zones[z].KeepsPurge
        (if zone1.rebases = true then (d.setZone z (zone1.compute (zoneKind z) (d.updateInput z))).endMark z true
          else d.setZone z (zone1.compute (zoneKind z) (d.updateInput z))).zones[z] := fun zone1 h1 ht => by
      split
      · rw [Device.endMark_zone, Device.setZone_read]
        exact .outside hnot h1 ht
      · rw [Device.setZone_read]
        exact .outside hnot h1 ht
    refine hone _ ?_ ?_
    · split
      · exact Mode.noConfusion
      · exact hnot
    · split <;> rfl
  · exact .refl _

/-- R89: only a tick counts a purge. -/
theorem event_keepsPurge (ws : List Job) (d : Device) {j : Job} {z : Fin 12} (h : j ≠ .zoneTick z) (m : TermSet) :
    d.zones[z].KeepsPurge (settled d (act ws d j) m).zones[z] := by
  cases hm : j.movesZone z with
  | false => rw [event_zone ws d hm m]; exact .refl _
  | true =>
    obtain ⟨_, _, _, _, hs⟩ := settled_frame d (act ws d j) m
    rw [hs]
    have hzone : ∀ y, some y = some z → y = z := fun y hy => Option.some.inj hy
    cases j <;> simp only [Job.movesZone, Job.block, Block.zone, Bool.or_eq_true, beq_iff_eq, reduceCtorEq, or_false, false_or] at hm
    case zoneValidity y v => obtain rfl := hzone y hm; exact d.zoneSeesValidity_keepsPurge y v _
    case zoneDemand y v => obtain rfl := hzone y hm; exact d.zoneSeesDemand_keepsPurge y v
    case zoneTick y => exact absurd (by rw [hzone y hm]) h
    case zoneArrival y => obtain rfl := hzone y hm; exact d.zoneArrival_keepsPurge y
    case zonesBreak =>
      simp only [act]
      exact d.zonesSeeBreak_keepsPurge z

/-! ## One tick at a purging zone -/

theorem Device.entryCheck_notPurge {d : Device} {z : Fin 12} (h : d.zones[z].mode ≠ .purge) :
    (d.entryCheck z).zones[z].mode ≠ .purge ∧ (d.entryCheck z).zones[z].purgeTime = d.zones[z].purgeTime := by
  unfold Device.entryCheck
  split
  · rw [d.faultZone_zone z 1]; exact ⟨Mode.noConfusion, rfl⟩
  split
  · rw [d.holdZone_zone z 1]; exact ⟨Mode.noConfusion, rfl⟩
  split
  · rw [d.holdZone_zone z 2]; exact ⟨Mode.noConfusion, rfl⟩
  · exact ⟨h, rfl⟩

/-- R89: a tick within the purge. -/
theorem Device.zoneTick_counts {d : Device} {z : Fin 12} (hm : d.zones[z].mode = .purge) (hc : 1 < d.zones[z].purgeCount) :
    (d.zoneTick z).zones[z] = { d.zones[z] with purgeCount := d.zones[z].purgeCount - 1 } := by
  unfold Device.zoneTick
  dsimp only
  rw [if_pos hm, if_pos hc]
  exact d.setZone_read z _

/-- R89: the tick that ends the purge. -/
theorem Device.zoneTick_ends {d : Device} {z : Fin 12} (hm : d.zones[z].mode = .purge) (hc : d.zones[z].purgeCount ≤ 1) :
    (d.zoneTick z).zones[z].mode ≠ .purge ∧ (d.zoneTick z).zones[z].purgeTime = d.zones[z].purgeTime := by
  unfold Device.zoneTick
  dsimp only
  rw [if_pos hm, if_neg (Nat.not_lt.mpr hc)]
  split
  · rw [d.faultZone_zone z 3]; exact ⟨Mode.noConfusion, rfl⟩
  · unfold Device.enterPreheatSeeded
    dsimp only
    generalize hx : ({ d.zones[z].seed (d.measured z).filtered with
      mode := .preheat, returnMode := .none, purgeCount := 0, faultDeferred := false } : Zone) = x
    have hread : (d.setZone z x).zones[z] = x := d.setZone_read z x
    obtain ⟨hmode, htime⟩ := Device.entryCheck_notPurge (d := d.setZone z x) (z := z) (by rw [hread, ← hx]; exact Mode.noConfusion)
    exact ⟨hmode, htime.trans (by rw [hread, ← hx]; rfl)⟩

/-- The tick still waits at a zone that purges as `x` did, or the zone has taken it. -/
def PurgeFollows (z : Fin 12) (x : Zone) (d : Device) (ts : List Job) : Prop :=
  d.zones[z].purgeTime = x.purgeTime
    ∧ ((ts = [.zoneTick z] ∧ d.zones[z].mode = .purge ∧ d.zones[z].purgeCount = x.purgeCount ∧ d.zones[z].u = x.u)
      ∨ (ts = [] ∧ (1 < x.purgeCount → d.zones[z].mode = .purge ∧ d.zones[z].purgeCount = x.purgeCount - 1 ∧ d.zones[z].u = x.u)
        ∧ (x.purgeCount ≤ 1 → d.zones[z].mode = .purge → d.zones[z].purgeCount = x.purgeTime)))

theorem PurgeFollows.keeps {z : Fin 12} {x : Zone} {d d' : Device} {ts : List Job} (h : PurgeFollows z x d ts)
    (k : d.zones[z].KeepsPurge d'.zones[z]) : PurgeFollows z x d' ts := by
  obtain ⟨ht, h⟩ := h
  refine ⟨k.time.trans ht, h.imp (fun ⟨hts, hm, hc, hu⟩ => ?_) fun ⟨hts, hlong, hend⟩ => ⟨hts, fun hx => ?_, fun hx hm' => ?_⟩⟩
  · obtain ⟨hm', hc', hu'⟩ := k.goesOn hm
    exact ⟨hts, hm', hc'.trans hc, hu'.trans hu⟩
  · obtain ⟨hm, hc, hu⟩ := hlong hx
    obtain ⟨hm', hc', hu'⟩ := k.goesOn hm
    exact ⟨hm', hc'.trans hc, hu'.trans hu⟩
  · by_cases hm : d.zones[z].mode = .purge
    · rw [(k.goesOn hm).2.1]
      exact hend hx hm
    · rw [k.begins hm hm', k.time, ht]

theorem purge_tracks (z : Fin 12) (x : Zone) : Tracks (fun j _ => j ≠ .command) (· == .zoneTick z) id (PurgeFollows z x) where
  perm hp h := ⟨h.1, h.2.imp (fun ⟨hts, h⟩ => ⟨List.perm_singleton.mp (hts ▸ hp.symm), h⟩) fun ⟨hts, h⟩ => ⟨List.nil_perm.mp (hts ▸ hp), h⟩⟩
  choices o h := h
  act {ws d j n m} _ _ _ _ h := by
    have hnone : (if n = 0 then [] else (handedOn d (act ws d j) m).filter (· == .zoneTick z)) = [] := by
      split
      · rfl
      · refine List.filter_eq_nil_iff.mpr fun y hy he => ?_
        have := fromOutside_of_mem_handedOn hy
        rw [beq_iff_eq.mp he] at this
        cases this
    rw [hnone, List.append_nil]
    by_cases hk : j = .zoneTick z
    · rw [List.filter_cons_of_pos (by simpa using hk)] at h
      obtain ⟨ht, ⟨hts, hm, hc, hu⟩ | ⟨hts, -⟩⟩ := h
      · rw [(List.cons.inj hts).2, hk]
        have hs : (settled d (act ws d (.zoneTick z)) m).zones = (d.zoneTick z).zones := by
          obtain ⟨_, _, _, _, hs⟩ := settled_frame d (act ws d (.zoneTick z)) m
          rw [hs]
          rfl
        unfold PurgeFollows
        rw [hs]
        by_cases hone : x.purgeCount ≤ 1
        · obtain ⟨hmode, htime⟩ := Device.zoneTick_ends hm (hc ▸ hone)
          exact ⟨htime.trans ht, .inr ⟨rfl, fun h => absurd h (Nat.not_lt.mpr hone), fun _ h => absurd h hmode⟩⟩
        · rw [Device.zoneTick_counts hm (by rw [hc]; exact Nat.lt_of_not_le hone)]
          exact ⟨ht, .inr ⟨rfl, fun _ => ⟨hm, congrArg (· - 1) hc, hu⟩, fun h => absurd h hone⟩⟩
      · cases hts
    · rw [List.filter_cons_of_neg (by simpa using hk)] at h
      exact h.keeps (event_keepsPurge ws d hk m)
  handsOn _ _ _ _ y hy hc := by
    subst hc
    cases fromOutside_of_mem_handedOn hy
  command h := absurd rfl h

end Sys2Proof.Machine

/-! One tick at every block (O14). -/

namespace Sys2Proof.Machine

/-! ## The events of a tick, block by block -/

theorem filter_map_none {α : Type} {tok : Job → Bool} {f : α → Job} (h : ∀ a, tok (f a) = false) (xs : List α) : (xs.map f).filter tok = [] :=
  List.filter_eq_nil_iff.mpr fun x hx => by
    obtain ⟨a, -, rfl⟩ := List.mem_map.mp hx
    simp [h a]

theorem filter_map_one {n : Nat} {tok : Job → Bool} {f : Fin n → Job} {a : Fin n} (h : ∀ i, tok (f i) = (i == a)) (p : Fin n → Bool) :
    (((List.finRange n).filter p).map f).filter tok = if p a then [f a] else [] := by
  have hf : tok ∘ f = (· == a) := funext h
  rw [List.filter_map, hf, finRange_filter_beq]
  split <;> rfl

theorem filter_finRange_one {n : Nat} {tok : Job → Bool} {f : Fin n → Job} {a : Fin n} (h : ∀ i, tok (f i) = (i == a)) :
    ((List.finRange n).map f).filter tok = [f a] := by
  have := filter_map_one h fun _ => true
  simpa using this

theorem Device.tickRoots_filter (d : Device) (tok : Job → Bool) : d.tickRoots.filter tok =
    [Job.timeoutTick].filter tok
      ++ ((((List.finRange 32).filter fun c => d.channels[c].validity != .none).map fun c => Job.channelTick c).filter tok
      ++ (((List.finRange 12).map fun z => Job.zoneTick z).filter tok
      ++ ([Job.monitorTick].filter tok ++ ((d.clockRoots .tick).filter tok ++ d.deferredRoots.filter tok)))) := by
  unfold Device.tickRoots
  simp only [List.filter_append, List.append_assoc]

theorem Device.tickRoots_link (d : Device) : d.tickRoots.filter Job.movesLink = [.timeoutTick] := by
  rw [d.tickRoots_filter, filter_map_none (fun _ => rfl), filter_map_none (fun _ => rfl), Device.clockRoots, filter_map_none (fun _ => rfl),
    Device.deferredRoots, filter_map_none (fun _ => rfl)]
  rfl

theorem Device.tickRoots_channel (d : Device) (c : Fin 32) : d.tickRoots.filter (Job.atChannel c) =
    if d.channels[c].validity != .none then [.channelTick c] else [] := by
  rw [d.tickRoots_filter, filter_map_one (a := c) (fun _ => rfl), filter_map_none (fun _ => rfl), Device.clockRoots, filter_map_none (fun _ => rfl),
    Device.deferredRoots, filter_map_none (fun _ => rfl)]
  simp [Job.atChannel]

theorem Device.tickRoots_zone (d : Device) (z : Fin 12) : d.tickRoots.filter (· == .zoneTick z) = [.zoneTick z] := by
  rw [d.tickRoots_filter, filter_map_none (fun _ => rfl), filter_finRange_one (a := z) (fun i => by simp), Device.clockRoots,
    filter_map_none (fun _ => rfl), Device.deferredRoots, filter_map_none (fun _ => rfl)]
  rfl

theorem Device.tickRoots_monitor (d : Device) : d.tickRoots.filter (· == .monitorTick) = [.monitorTick] := by
  rw [d.tickRoots_filter, filter_map_none (fun _ => rfl), filter_map_none (fun _ => rfl), Device.clockRoots, filter_map_none (fun _ => rfl),
    Device.deferredRoots, filter_map_none (fun _ => rfl)]
  rfl

theorem Device.tickRoots_unit (d : Device) (k : Fin 6) :
    d.tickRoots.filter (Job.movesUnit k) = if d.timers[k].clock == .tick then [.timerClock k .tick] else [] := by
  rw [d.tickRoots_filter, filter_map_none (fun _ => by simp [Job.movesUnit, Job.block]),
    filter_map_none (fun _ => by simp [Job.movesUnit, Job.block]), d.clockRoots_unit .tick k,
    Device.deferredRoots, filter_map_none (fun _ => by simp [Job.movesUnit, Job.block])]
  simp [Job.movesUnit, Job.block]

theorem Device.mem_tickRoots {d : Device} {j : Job} (h : j ∈ d.tickRoots) : j = .timeoutTick ∨ (∃ c, j = .channelTick c) ∨ (∃ z, j = .zoneTick z)
    ∨ j = .monitorTick ∨ (∃ k, j = .timerClock k .tick) ∨ ∃ i, j = .deferredTerm i ∧ d.terms[i].deferred = true := by
  unfold Device.tickRoots Device.clockRoots Device.deferredRoots at h
  simp only [List.mem_append, List.mem_singleton, List.mem_map, List.mem_filter, List.mem_finRange, true_and] at h
  rcases h with ((((rfl | ⟨c, -, rfl⟩) | ⟨z, rfl⟩) | rfl) | ⟨k, -, rfl⟩) | ⟨i, hi, rfl⟩
  · exact .inl rfl
  · exact .inr (.inl ⟨c, rfl⟩)
  · exact .inr (.inr (.inl ⟨z, rfl⟩))
  · exact .inr (.inr (.inr (.inl rfl)))
  · exact .inr (.inr (.inr (.inr (.inl ⟨k, rfl⟩))))
  · exact .inr (.inr (.inr (.inr (.inr ⟨i, rfl, hi⟩))))

theorem Device.tickRoots_plain {d : Device} {j : Job} (h : j ∈ d.tickRoots) : j.Modest ∧ j ≠ .command ∧ j.follow ≤ 2 ∧ j.movesLines = false := by
  rcases Device.mem_tickRoots h with rfl | ⟨c, rfl⟩ | ⟨z, rfl⟩ | rfl | ⟨k, rfl⟩ | ⟨i, rfl, -⟩
  all_goals exact ⟨fun c x vs he => (by cases he), by simp, by simp [Job.follow], rfl⟩

/-! ## The Monitor where terms and timers read only constants -/

/-- The event leaves the Monitor to its tick. -/
def Job.MonitorAtTick (j : Job) : Prop :=
  (j.movesMonitor = false ∨ j = .monitorTick) ∧ (∀ i, j ≠ .deferredTerm i) ∧ (∀ l, j ≠ .wbrkLevel l) ∧ j ≠ .command

theorem Job.MonitorAtTick.handsOn {d : Device} (hu : d.Unread) {ws : List Job} {j x : Job} {m : TermSet} (h : j.MonitorAtTick)
    (hx : x ∈ handedOn d (act ws d j) m) : x.MonitorAtTick := by
  obtain ⟨hm, ht, hw, -⟩ := h
  rcases hu.mem_handedOn ht hx with hx | ⟨s, r, rfl⟩ | ⟨⟨w, rfl⟩ | ⟨l, rfl⟩, -⟩
  · cases hx <;> exact ⟨.inl rfl, by simp, by simp, by simp⟩
  · exact ⟨.inl rfl, by simp, by simp, by simp⟩
  · rcases hm with hm | hm <;> cases hm
  · exact absurd rfl (hw l)

/-- The Monitor's tick still waits, or it has counted it. -/
def TickFollows (x y : Monitor) (d : Device) (ts : List Job) : Prop :=
  d.Unread ∧ ((ts = [.monitorTick] ∧ d.monitor = x) ∨ (ts = [] ∧ d.monitor = y))

theorem monitor_tracks {x y : Monitor} (hxy : ∀ d : Device, d.monitor = x → d.monitorTick.1.monitor = y) :
    Tracks (fun j _ => j.MonitorAtTick) (· == .monitorTick) id (TickFollows x y) where
  perm hp h := ⟨h.1, h.2.imp (fun ⟨hts, h⟩ => ⟨List.perm_singleton.mp (hts ▸ hp.symm), h⟩) fun ⟨hts, h⟩ => ⟨List.nil_perm.mp (hts ▸ hp), h⟩⟩
  choices o h := ⟨h.1.congr ⟨rfl, fun _ => rfl⟩, h.2⟩
  act {ws d j n m} hj _ _ _ h := by
    obtain ⟨hm, ht, -, -⟩ := hj
    have hnone : (if n = 0 then [] else (handedOn d (act ws d j) m).filter (· == .monitorTick)) = [] := by
      split
      · rfl
      · refine List.filter_eq_nil_iff.mpr fun y hy he => ?_
        have := fromOutside_of_mem_handedOn hy
        rw [beq_iff_eq.mp he] at this
        cases this
    rw [hnone, List.append_nil]
    refine ⟨h.1.kept ws ht m, ?_⟩
    rcases hm with hm | rfl
    · have hk : (j == .monitorTick) = false := beq_eq_false_iff_ne.mpr fun he => by rw [he] at hm; cases hm
      rw [List.filter_cons_of_neg (by rw [hk]; simp)] at h
      rw [(settled_act_spares ws d j m).monitor hm]
      exact h.2
    · rw [List.filter_cons_of_pos (by simp)] at h
      obtain ⟨-, ⟨hts, h⟩ | ⟨hts, -⟩⟩ := h
      · obtain ⟨_, _, _, _, hs⟩ := settled_frame d (act ws d .monitorTick) m
        rw [hs]
        exact .inr ⟨(List.cons.inj hts).2, hxy d h⟩
      · cases hts
  handsOn hj _ _ h x hx := hj.handsOn h.1 hx
  command h := absurd rfl h.2.2.2

theorem Device.monitorTick_counts {d : Device} (h : d.monitor.state = .suspect) (hc : 1 < d.monitor.countdown) :
    d.monitorTick.1.monitor = d.monitor.countTick := by
  unfold Device.monitorTick
  rw [if_pos h]
  dsimp only
  rw [if_neg (by show d.monitor.countdown - 1 ≠ 0; omega)]

theorem Device.monitorTick_stands {d : Device} (h : d.monitor.state ≠ .suspect) : d.monitorTick.1 = d := by
  unfold Device.monitorTick
  rw [if_neg h]

/-! ## The other blocks -/

/-- No event of a tick counts a cycle or moves a line. -/
theorem lines_kept (d0 : Device) : KeptByEvent (fun d => d.port.cycleCount = d0.port.cycleCount ∧ d.lines = d0.lines) fun j => j.movesLines = false where
  choose d n h := by
    obtain ⟨o, ho⟩ := d.choose_dev n
    rw [ho]
    exact h
  act ws d j m h hj := by
    have hs := settled_act_spares ws d j m
    exact ⟨hs.cycleCount.trans h.1, (hs.lines hj).trans h.2⟩
  handsOn ws d j m _ _ x hx := by
    have := fromOutside_of_mem_handedOn hx
    cases x
    case markLevel | wbrkLevel => cases this
    all_goals rfl

/-- R15, R19: a tick at the cycle timeout countdown. -/
theorem Device.timeoutTick_link (d : Device) : d.timeoutTick.port.timeoutCountdown = d.port.timeoutCountdown - 1
    ∧ d.timeoutTick.port.link = if d.port.timeoutCountdown = 1 ∧ d.port.link = .locked then .lost else d.port.link := by
  unfold Device.timeoutTick
  dsimp only
  split
  · exact ⟨rfl, rfl⟩
  · exact ⟨rfl, rfl⟩

/-- R37: a tick at a channel. -/
theorem Channel.tick_none {x : Channel} (h : x.validity = .none) : x.tick.1 = x := by
  unfold Channel.tick
  rw [if_pos h]

theorem Channel.fail_frame (x : Channel) (cause : Word) : (x.fail cause).1.validity = .failed ∧ (x.fail cause).1.age = x.age
    ∧ (x.fail cause).1.raw = x.raw ∧ (x.fail cause).1.value = x.value ∧ (x.fail cause).1.filtered = x.filtered := by
  unfold Channel.fail
  split
  · next h => exact ⟨h, rfl, rfl, rfl, rfl⟩
  · exact ⟨rfl, rfl, rfl, rfl, rfl⟩

/-- R37: the channel has one tick more of age, and is STALE where that reaches its staleLimit. -/
def Channel.aged (x : Channel) : Channel :=
  if x.validity = .fresh ∧ x.staleLimit ≤ min 65535 (x.age + 1) then { x with age := min 65535 (x.age + 1), validity := .stale }
  else { x with age := min 65535 (x.age + 1) }

/-- R37, R39: the event of the loss of FRESH by age. -/
def Channel.staleEvents (x : Channel) : List (EventKind × Word) :=
  if (x.validity = .fresh ∧ x.staleLimit ≤ min 65535 (x.age + 1)) ∧ x.enableStale = true then [(.channelStale, toWord x.filtered)] else []

theorem Channel.aged_frame (x : Channel) : x.aged.age = min 65535 (x.age + 1) ∧ x.aged.raw = x.raw ∧ x.aged.value = x.value
    ∧ x.aged.filtered = x.filtered ∧ x.aged.failLimit = x.failLimit ∧ x.aged.enableStale = x.enableStale
    ∧ x.aged.validity = if x.validity = .fresh ∧ x.staleLimit ≤ min 65535 (x.age + 1) then .stale else x.validity := by
  unfold Channel.aged
  split <;> exact ⟨rfl, rfl, rfl, rfl, rfl, rfl, rfl⟩

theorem Channel.aged_failed_iff (x : Channel) : x.aged.validity ≠ .failed ↔ x.validity ≠ .failed := by
  obtain ⟨-, -, -, -, -, -, h⟩ := x.aged_frame
  rw [h]
  split
  · next hs => simp [hs.1]
  · exact Iff.rfl

/-- R37: a tick ages the channel, and fails it where its failLimit is reached. -/
theorem Channel.tick_eq {x : Channel} (h : x.validity ≠ .none) : x.tick =
    if x.validity ≠ .failed ∧ x.failLimit ≤ min 65535 (x.age + 1) then ((x.aged.fail 2).1, x.staleEvents ++ (x.aged.fail 2).2)
    else (x.aged, x.staleEvents) := by
  obtain ⟨hage, -, -, hfil, hlim, hen, -⟩ := x.aged_frame
  have hunfold : x.tick = if x.aged.validity ≠ .failed ∧ x.aged.failLimit ≤ x.aged.age then
      ((x.aged.fail 2).1, x.staleEvents ++ (x.aged.fail 2).2) else (x.aged, x.staleEvents) := by
    unfold Channel.tick
    rw [if_neg h]
    rfl
  rw [hunfold, hage, hlim]
  simp only [x.aged_failed_iff]

theorem Channel.tick_values {x : Channel} (h : x.validity ≠ .none) :
    x.tick.1.age = min 65535 (x.age + 1) ∧ x.tick.1.raw = x.raw ∧ x.tick.1.value = x.value ∧ x.tick.1.filtered = x.filtered
      ∧ x.tick.1.validity = (if x.validity ≠ .failed ∧ x.failLimit ≤ min 65535 (x.age + 1) then .failed
          else if x.validity = .fresh ∧ x.staleLimit ≤ min 65535 (x.age + 1) then .stale else x.validity) := by
  obtain ⟨hage, hraw, hvalue, hfil, -, -, hval⟩ := x.aged_frame
  obtain ⟨h1, h2, h3, h4, h5⟩ := x.aged.fail_frame 2
  rw [Channel.tick_eq h]
  split
  · exact ⟨h2.trans hage, h3.trans hraw, h4.trans hvalue, h5.trans hfil, h1⟩
  · exact ⟨hage, hraw, hvalue, hfil, hval⟩

theorem exec_tick {s : State} (h : s.dev.lines.rstn = true) : exec .tick s = .next { s with dev := s.dev.tick } := by
  show State.become s (s.dev.occur true s.dev.tick) = _
  rw [Device.occur_true h]
  rfl

/-- R37: each channel over a tick. -/
theorem Device.tick_channel (d : Device) (c : Fin 32) : d.tick.channels[c] = d.channels[c].tick.1 := by
  have h := (channel_tracks c d.channels[c] d.channels[c].tick.1 d.channels[c].tickValidities).runRoots d.forgetBreak d.tickRoots
    (fun j hj => (Device.tickRoots_plain hj).1)
    (fun j hj => ⟨(Device.tickRoots_plain hj).2.1, (Device.tickRoots_plain hj).2.2.1.trans (by decide)⟩) (by
      rw [d.tickRoots_channel c]
      split
      · exact .inl ⟨_, rfl, Job.brings_tick c _, rfl⟩
      · next hv => exact .inr (.inr ⟨rfl, by rw [Channel.tick_none (by simpa using hv)]; rfl⟩))
  rcases h with ⟨_, hts, -⟩ | ⟨hts, -⟩ | ⟨-, h⟩
  · cases hts
  · cases hts
  · exact h

/-- R15, R19: the link over a tick. -/
theorem Device.tick_link (d : Device) : d.tick.port.timeoutCountdown = d.port.timeoutCountdown - 1
    ∧ d.tick.port.link = if d.port.timeoutCountdown = 1 ∧ d.port.link = .locked then .lost else d.port.link := by
  obtain ⟨e, he, ht⟩ := Device.runRoots_link (d := d.forgetBreak) (ℓ := .timeoutTick) rfl (fun j hj => (Device.tickRoots_plain hj).1)
    (fun hj => (Device.tickRoots_plain hj).2.1 rfl) d.tickRoots_link
  replace ht : LinkStands e.timeoutTick d.tick := ht
  obtain ⟨hcount, hlink⟩ := e.timeoutTick_link
  refine ⟨by rw [ht.countdown, hcount, he.countdown]; rfl, ?_⟩
  rw [ht.link, hlink, he.countdown, he.link]
  rfl

/-- R107: a unit with a constant input over a tick. -/
theorem Device.tick_unit (d : Device) {k : Fin 6} (hx : d.timers[k].input.isFixed = true) :
    (∀ b, d.timers[k].clock = .tick → d.timers[k].hold = .fixed b → d.tick.timers[k] = d.timers[k].clocked b)
      ∧ (d.timers[k].clock = .cycle ∨ d.timers[k].clock = .mark → d.tick.timers[k] = d.timers[k]) := by
  have run := fun held hc hr hh => Device.runRoots_unit (d := d.forgetBreak) (k := k) (command := id) (held := held) (roots := d.tickRoots)
    ⟨hx, hc⟩ (fun _ _ => rfl) (fun j hj => (Device.tickRoots_plain hj).1) hr hh
  refine ⟨fun b hc hh => ?_, fun hc => ?_⟩
  · have hroots : d.tickRoots.filter (Job.movesUnit k) = [.timerClock k d.timers[k].clock] := by
      rw [d.tickRoots_unit k, hc]
      rfl
    have h := run b (by rw [show d.forgetBreak.timers[k].clock = _ from hc]; exact ClockSource.noConfusion) (by rw [hroots]; simp)
      (fun _ d' => by rw [show d.forgetBreak.timers[k].hold = _ from hh]; rfl)
    rw [hroots] at h
    exact h
  · have hroots : d.tickRoots.filter (Job.movesUnit k) = [] := by
      rw [d.tickRoots_unit k]
      rcases hc with hc | hc <;> rw [hc] <;> rfl
    have h := run false (fun h => by rcases hc with hc | hc <;> rw [show d.timers[k].clock = .cascade from h] at hc <;> cases hc)
      (by rw [hroots]; simp) (by rw [hroots]; simp)
    rw [hroots] at h
    exact h

/-- R89: a purging zone over a tick. -/
theorem Device.tick_zone (d : Device) {z : Fin 12} (hm : d.zones[z].mode = .purge) : PurgeFollows z d.zones[z] d.tick [] :=
  (purge_tracks z d.zones[z]).runRoots d.forgetBreak d.tickRoots (fun j hj => (Device.tickRoots_plain hj).1)
    (fun j hj => (Device.tickRoots_plain hj).2.1) ⟨rfl, .inl ⟨d.tickRoots_zone z, hm, rfl, rfl⟩⟩

/-- R140: the Monitor over a tick, where terms and timers read only constants and no term is deferred. -/
theorem Device.tick_monitor {d : Device} (hu : d.Unread) (hd : ∀ j : Fin 8, d.terms[j].deferred = false) {y : Monitor}
    (hy : ∀ d' : Device, d'.monitor = d.monitor → d'.monitorTick.1.monitor = y) : d.tick.monitor = y := by
  have h := (monitor_tracks hy).runRoots d.forgetBreak d.tickRoots (fun j hj => (Device.tickRoots_plain hj).1)
    (fun j hj => by
      rcases Device.mem_tickRoots hj with rfl | ⟨c, rfl⟩ | ⟨z, rfl⟩ | rfl | ⟨k, rfl⟩ | ⟨i, rfl, hi⟩
      case inr.inr.inr.inr.inr => rw [hd i] at hi; cases hi
      case inr.inr.inr.inl => exact ⟨.inr rfl, by simp, by simp, by simp⟩
      all_goals exact ⟨.inl rfl, by simp, by simp, by simp⟩)
    ⟨hu.congr ⟨rfl, fun _ => rfl⟩, .inl ⟨d.tickRoots_monitor, rfl⟩⟩
  obtain ⟨-, ⟨hts, -⟩ | ⟨-, h⟩⟩ := h
  · cases hts
  · exact h

/-- Settles O14: each block takes its own event of the tick, and no other event moves what the statement names. -/
theorem tickActsAtEveryBlock : Obligations.TickActsAtEveryBlock := by
  intro s hr
  obtain ⟨hcountdown, hlink⟩ := s.dev.tick_link
  obtain ⟨hcount, hlines⟩ := Device.runRoots_keeps (command := id) (lines_kept s.dev.forgetBreak) (fun _ h => h) s.dev.forgetBreak
    s.dev.tickRoots ⟨rfl, rfl⟩ fun j hj => (Device.tickRoots_plain hj).2.2.2
  refine ⟨{ s with dev := s.dev.tick }, exec_tick hr, hcountdown, hlink, hcount, hlines, fun z hm => ?_, fun k hin => ?_,
    fun hu hd => ⟨fun hs hc => ?_, fun hs => ?_⟩, fun c => ?_⟩
  · obtain ⟨-, ⟨hts, -⟩ | ⟨-, hlong, hend⟩⟩ := s.dev.tick_zone hm
    · cases hts
    · exact ⟨hlong, hend⟩
  · obtain ⟨htick, hother⟩ := s.dev.tick_unit hin
    exact ⟨fun hc hh => htick false hc hh, fun hc hh => htick true hc hh, hother⟩
  · exact Device.tick_monitor hu hd fun d' hd' => by
      rw [Device.monitorTick_counts (by rw [hd']; exact hs) (by rw [hd']; exact hc), hd']
      rfl
  · exact Device.tick_monitor hu hd fun d' hd' => by
      rw [Device.monitorTick_stands (by rw [hd']; exact hs), hd']
  · intro x y age
    have hc : y = x.tick.1 := s.dev.tick_channel c
    rw [hc]
    exact ⟨Channel.tick_none, Channel.tick_values⟩

end Sys2Proof.Machine

/-! A channel that ages: what the zones that measure it make of a validity that it loses. -/

namespace Sys2Proof.Machine

/-! ## What is told, seen from an earlier queue -/

theorem EventQueue.Told.earlier {p : EventRecord → Prop} {a b q : EventQueue} (g : a.Grows p b) {kind : EventKind} {source : Nat}
    {stamp : BitVec 32} {value : Word} (h : b.Told q kind source stamp value) : a.Told q kind source stamp value :=
  h.imp_left fun hm => List.mem_of_mem_drop (i := b.records.length - a.records.length) (by
    rw [List.drop_drop, Nat.add_sub_cancel' g.length_le]
    exact hm)

theorem EventQueue.Grows.any {p : EventRecord → Prop} {a b : EventQueue} (g : a.Grows p b) : a.Grows (fun _ => True) b := g.mono fun _ _ => trivial

/-- R188: every event of a list that is raised is told. -/
theorem Device.raiseAll_told (n : Nat) (evs : List (EventKind × Word)) (d : Device) : ∀ e ∈ evs,
    d.events.Told (d.raiseAll n evs).events e.1 n d.port.cycleCount e.2 := by
  induction evs generalizing d with
  | nil => simp
  | cons x xs ih =>
    intro e he
    have hrest : (d.raise x.1 n x.2).events.Grows (fun _ => True) ((d.raise x.1 n x.2).raiseAll n xs).events :=
      Device.raiseAll_grows n xs _ fun _ _ => trivial
    rcases List.mem_cons.mp he with rfl | he
    · exact (EventQueue.told_offer _ _ _ _ _ _ (Nat.le_refl _)).grows hrest
    · exact (ih (d.raise x.1 n x.2) e he).earlier (EventQueue.Grows.one (p := fun _ => True) _ trivial)

/-! ## A zone and the validities that its channel loses -/

/-- R82, R86, R90: a zone's record after its channel has become STALE or FAILED. -/
def Zone.sees (y : Zone) (v : Validity) : Zone :=
  if v = .stale ∧ (y.mode = .preheat ∨ y.mode = .track) then { y.toHold y.mode.asReturn with bumpless := false }
  else if v = .failed ∧ (y.mode = .preheat ∨ y.mode = .track ∨ y.mode = .hold) then { y.toFault with bumpless := false }
  else if v = .failed ∧ y.mode = .purge then { y with faultDeferred := true }
  else y

theorem Zone.sees_stale {y : Zone} (h : y.mode = .preheat ∨ y.mode = .track) :
    y.sees .stale = { y.toHold y.mode.asReturn with bumpless := false } := if_pos ⟨rfl, h⟩

theorem Zone.sees_stale_other {y : Zone} (h : y.mode ≠ .preheat) (h' : y.mode ≠ .track) : y.sees .stale = y := by
  unfold Zone.sees
  rw [if_neg fun hc => hc.2.elim h h', if_neg fun hc => Validity.noConfusion hc.1, if_neg fun hc => Validity.noConfusion hc.1]

theorem Zone.sees_failed {y : Zone} (h : y.mode = .preheat ∨ y.mode = .track ∨ y.mode = .hold) :
    y.sees .failed = { y.toFault with bumpless := false } := by
  unfold Zone.sees
  rw [if_neg fun hc => Validity.noConfusion hc.1, if_pos ⟨rfl, h⟩]

theorem Zone.sees_failed_purge {y : Zone} (h : y.mode = .purge) : y.sees .failed = { y with faultDeferred := true } := by
  unfold Zone.sees
  rw [if_neg fun hc => Validity.noConfusion hc.1, if_neg fun hc => by rw [h] at hc; simp at hc, if_pos ⟨rfl, h⟩]

theorem Zone.sees_failed_other {y : Zone} (h : y.mode = .off ∨ y.mode = .fault) : y.sees .failed = y := by
  unfold Zone.sees
  rw [if_neg fun hc => Validity.noConfusion hc.1, if_neg fun hc => by rcases h with h | h <;> rw [h] at hc <;> simp at hc,
    if_neg fun hc => by rcases h with h | h <;> rw [h] at hc <;> simp at hc]

theorem Mode.cases_of_failure (m : Mode) : (m = .preheat ∨ m = .track ∨ m = .hold) ∨ m = .purge ∨ (m = .off ∨ m = .fault) := by
  cases m <;> simp

/-- A zone whose channel is lost in two steps is as one whose channel has failed at once, in whichever order it sees them. -/
theorem Zone.sees_both (y : Zone) : (y.sees .stale).sees .failed = y.sees .failed ∧ (y.sees .failed).sees .stale = y.sees .failed := by
  refine ⟨?_, ?_⟩
  · by_cases h : y.mode = .preheat ∨ y.mode = .track
    · rw [Zone.sees_stale h, Zone.sees_failed (.inr (.inr rfl)), Zone.sees_failed (h.imp_right .inl)]
      rfl
    · rw [Zone.sees_stale_other (fun h' => h (.inl h')) fun h' => h (.inr h')]
  · rcases Mode.cases_of_failure y.mode with h | h | h
    · rw [Zone.sees_failed h]
      exact Zone.sees_stale_other Mode.noConfusion Mode.noConfusion
    · rw [Zone.sees_failed_purge h]
      exact Zone.sees_stale_other (fun h' => by rw [show y.mode = _ from h'] at h; cases h) fun h' => by rw [show y.mode = _ from h'] at h; cases h
    · rw [Zone.sees_failed_other h]
      exact Zone.sees_stale_other (fun h' => by rcases h with h | h <;> rw [h] at h' <;> cases h')
        fun h' => by rcases h with h | h <;> rw [h] at h' <;> cases h'

theorem Device.zoneSeesValidity_zone (d : Device) (z : Fin 12) {v : Validity} (hv : v = .stale ∨ v = .failed) (b : Bool) :
    (d.zoneSeesValidity z v b).zones[z] = d.zones[z].sees v := by
  unfold Device.zoneSeesValidity
  dsimp only
  split
  case h_1 hm => rw [d.holdZone_zone z 1, Zone.sees_stale (.inl hm)]
  case h_2 hm => rw [d.holdZone_zone z 1, Zone.sees_stale (.inr hm)]
  case h_3 hm => rw [d.faultZone_zone z 1, Zone.sees_failed (.inl hm)]
  case h_4 hm => rw [d.faultZone_zone z 1, Zone.sees_failed (.inr (.inl hm))]
  case h_5 hm => rw [d.faultZone_zone z 1, Zone.sees_failed (.inr (.inr hm))]
  case h_6 hm => rw [Device.setZone_read, Zone.sees_failed_purge hm]
  case h_7 => rcases hv with hv | hv <;> cases hv
  case h_8 h1 h2 h3 h4 h5 h6 _ =>
    rcases hv with rfl | rfl
    · exact (Zone.sees_stale_other (h1 rfl) (h2 rfl)).symm
    · refine (Zone.sees_failed_other ?_).symm
      rcases Mode.cases_of_failure d.zones[z].mode with (h | h | h) | h | h
      · exact absurd h (h3 rfl)
      · exact absurd h (h4 rfl)
      · exact absurd h (h5 rfl)
      · exact absurd h (h6 rfl)
      · exact h

/-- R103: the event of a zone whose channel has become STALE. -/
theorem Device.zoneSeesValidity_hold {d : Device} {z : Fin 12} (h : d.zones[z].mode = .preheat ∨ d.zones[z].mode = .track) (b : Bool) :
    d.events.Told (d.zoneSeesValidity z .stale b).events .zoneHold z.val d.port.cycleCount 1 := by
  have he : d.zoneSeesValidity z .stale b = d.holdZone z 1 := by
    unfold Device.zoneSeesValidity
    rcases h with h | h <;> simp only [h]
  rw [he]
  exact d.holdZone_told z 1

/-- R103: the event of a zone whose channel has FAILED. -/
theorem Device.zoneSeesValidity_fault {d : Device} {z : Fin 12}
    (h : d.zones[z].mode = .preheat ∨ d.zones[z].mode = .track ∨ d.zones[z].mode = .hold) (b : Bool) :
    d.zoneSeesValidity z .failed b = d.faultZone z 1 := by
  unfold Device.zoneSeesValidity
  rcases h with h | h | h <;> simp only [h]

/-! ## The events of an ageing channel -/

/-- The events of a channel's ageing while terms and timers read only constants. -/
inductive OfAging (c : Fin 32) : Job → Prop
  | tick : OfAging c (.channelTick c)
  | change (x : Channel) (vs : List Validity) : OfAging c (.channelChange c x vs)
  | loss : OfAging c .speedLoss
  | sees (z : Fin 12) (v : Validity) : OfAging c (.zoneValidity z v)
  | permit (source reason : Nat) : OfAging c (.permitDropped source reason)

theorem OfAging.plain {c : Fin 32} {j : Job} (h : OfAging c j) : (∀ i, j ≠ .deferredTerm i) ∧ j ≠ .command ∧ j ≠ .zonesBreak := by
  cases h <;> simp

theorem OfAging.handsOn {c : Fin 32} {d : Device} (hu : d.Unread) {ws : List Job} {j x : Job} {m : TermSet} (h : OfAging c j)
    (hx : x ∈ handedOn d (act ws d j) m) : OfAging c x := by
  rcases hu.mem_handedOn h.plain.1 hx with hx | ⟨s, r, rfl⟩ | ⟨⟨w, rfl⟩ | ⟨l, rfl⟩, -⟩
  · cases hx with
    | tick i => cases h; exact .change _ _
    | loss => exact .loss
    | validity => exact .sees _ _
    | sample | request | cascade => cases h
    | zonesBreak j hj => cases h <;> cases hj
    | trigger j hj => cases h <;> cases hj
  · exact .permit s r
  · cases h
  · cases h

/-- What is handed on to one zone: nothing, unless the zone measures the channel that changes. -/
def Job.seenBy (z : Fin 12) (j : Job) : Bool := j.block == .zoneValidity z

theorem seenBy_handedOn (ws : List Job) (d : Device) (j : Job) (m : TermSet) (z : Fin 12) :
    (handedOn d (act ws d j) m).filter (Job.seenBy z) = (act ws d j).next.filter (Job.seenBy z) :=
  handedOn_filter (fun _ _ _ h => by cases h <;> simp [Job.seenBy, Job.block]) d _ m

theorem seenBy_next {ws : List Job} {d : Device} {j : Job} {z : Fin 12} (h : ∀ x vs, j ≠ .channelChange d.zones[z].measChannel x vs) :
    (act ws d j).next.filter (Job.seenBy z) = [] := by
  refine List.filter_eq_nil_iff.mpr fun x hx hc => ?_
  cases mem_act_next hx with
  | validity c x vs v y hv hy =>
    obtain rfl : y = z := by simpa [Job.seenBy, Job.block] using hc
    exact h x vs (by rw [hy])
  | _ => simp [Job.seenBy, Job.block] at hc

theorem validityJobs_seenBy (d : Device) (z : Fin 12) (old : Validity) (vs : List Validity) :
    (validityJobs d d.zones[z].measChannel old vs).filter (Job.seenBy z) = vs.map (.zoneValidity z) := by
  have hloss : ∀ p : Prop, [Decidable p] → (if p then [Job.speedLoss] else []).filter (Job.seenBy z) = [] := fun p _ => by
    split <;> simp [Job.seenBy, Job.block]
  unfold validityJobs
  rw [List.filter_append, hloss, List.nil_append]
  induction vs with
  | nil => rfl
  | cons v vs ih =>
    rw [List.flatMap_cons, List.filter_append, ih, filter_map_one (a := z) (fun i => by simp [Job.seenBy, Job.block])]
    simp

theorem channelChange_seenBy (ws : List Job) (d : Device) (z : Fin 12) (x : Channel) (vs : List Validity) :
    (act ws d (.channelChange d.zones[z].measChannel x vs)).next.filter (Job.seenBy z) = vs.map (.zoneValidity z) :=
  validityJobs_seenBy d z _ vs

/-- A zone that measures no channel that changes stands. -/
theorem zoneStands_tracks {c : Fin 32} {z : Fin 12} {y : Zone} (hy : y.measChannel ≠ c) :
    Tracks (fun j _ => OfAging c j) (Job.seenBy z) id (fun d ts => d.Unread ∧ ts = [] ∧ d.zones[z] = y) where
  perm hp h := ⟨h.1, List.nil_perm.mp (h.2.1 ▸ hp), h.2.2⟩
  choices o h := ⟨h.1.congr ⟨rfl, fun _ => rfl⟩, h.2⟩
  act {ws d j n m} hj _ _ _ h := by
    obtain ⟨hu, hts, hz⟩ := h
    have hnone : j.seenBy z = false := by
      cases hs : j.seenBy z with
      | false => rfl
      | true => rw [List.filter_cons_of_pos hs] at hts; cases hts
    rw [List.filter_cons_of_neg (by rw [hnone]; simp)] at hts
    rw [seenBy_handedOn, seenBy_next (fun x vs hx => by rw [hx] at hj; cases hj; exact hy (by rw [hz])), ite_self, List.append_nil]
    refine ⟨hu.kept ws hj.plain.1 m, hts, ?_⟩
    rw [event_zone ws d ?_ m, hz]
    cases hj <;> simp [Job.movesZone, Job.block, Block.zone, Job.seenBy] at hnone ⊢
    exact hnone
  handsOn hj _ _ h x hx := hj.handsOn h.1 hx
  command h := absurd rfl h.plain.2.1

end Sys2Proof.Machine

/-! The zones that measure an ageing channel: each follows it, whatever the order in which it sees what the channel passes through. -/

namespace Sys2Proof.Machine

/-- R86: HOLD, PREHEAT and TRACK are the modes that a failure ends. -/
def Mode.fails (m : Mode) : Prop := m = .preheat ∨ m = .track ∨ m = .hold

theorem Zone.foldl_sees_stale {y : Zone} (h : y.mode.fails) (vs : List Validity) (hvs : ∀ v ∈ vs, v = .stale) : (vs.foldl Zone.sees y).mode.fails := by
  induction vs generalizing y with
  | nil => exact h
  | cons v vs ih =>
    refine ih ?_ fun v' hv' => hvs v' (List.mem_cons_of_mem _ hv')
    rw [hvs v List.mem_cons_self]
    by_cases hm : y.mode = .preheat ∨ y.mode = .track
    · rw [Zone.sees_stale hm]
      exact .inr (.inr rfl)
    · rw [Zone.sees_stale_other (fun h' => hm (.inl h')) fun h' => hm (.inr h')]
      exact h

/-- A zone that measures the channel of `d0` that ages: the tick still waits, or the change, or some of the validities that it passes through. -/
structure AgingZone (d0 : Device) (z : Fin 12) (d : Device) (ts : List Job) : Prop where
  unread : d.Unread
  cycleCount : d.port.cycleCount = d0.port.cycleCount
  grows : d0.events.Grows (fun _ => True) d.events
  stage : let c := d0.zones[z].measChannel
    let x := d0.channels[c]
    (ts = [.channelTick c] ∧ d.channels[c] = x ∧ d.zones[z] = d0.zones[z])
    ∨ (ts = [.channelChange c x.tick.1 x.tickValidities] ∧ d.zones[z] = d0.zones[z])
    ∨ ∃ seen rest, (seen ++ rest).Perm x.tickValidities ∧ ts.Perm (rest.map (.zoneValidity z)) ∧ d.zones[z] = seen.foldl Zone.sees d0.zones[z]
      ∧ (seen = [.stale] → d0.zones[z].mode = .preheat ∨ d0.zones[z].mode = .track →
          d0.events.Told d.events .zoneHold z.val d0.port.cycleCount 1)
      ∧ (.failed ∈ seen → d0.zones[z].mode.fails → d0.events.Told d.events .zoneFault z.val d0.port.cycleCount 1)

theorem Channel.tickValidities_mem {x : Channel} {v : Validity} (h : v ∈ x.tickValidities) : v = .stale ∨ v = .failed := by
  unfold Channel.tickValidities at h
  dsimp only at h
  split at h
  · cases h
  · next hne =>
    split at h
    · simpa using h
    · rw [List.mem_singleton] at h
      by_cases hn : x.validity = .none
      · rw [Channel.tick_none hn] at hne
        exact absurd rfl hne
      · obtain ⟨-, -, -, -, hval⟩ := Channel.tick_values hn
        rw [h]
        rw [hval] at hne ⊢
        split
        · exact .inr rfl
        · next hf =>
          rw [if_neg hf] at hne
          split
          · exact .inl rfl
          · next hs => rw [if_neg hs] at hne; exact absurd rfl hne

theorem perm_erase_map {α : Type} {f : α → Job} (hf : Function.Injective f) {a : α} {ts : List Job} {rest : List α}
    (h : (f a :: ts).Perm (rest.map f)) : ∃ rest', rest.Perm (a :: rest') ∧ ts.Perm (rest'.map f) := by
  obtain ⟨b, hb, hfb⟩ := List.mem_map.mp (h.mem_iff.mp List.mem_cons_self)
  obtain rfl := hf hfb
  obtain ⟨l1, l2, rfl⟩ := List.append_of_mem hb
  have hp : (l1 ++ b :: l2).Perm (b :: (l1 ++ l2)) := List.perm_middle
  exact ⟨l1 ++ l2, hp, (h.trans (hp.map f)).cons_inv⟩

/-- The events that the zone waits for. -/
def Job.ofAgingZone (d0 : Device) (z : Fin 12) (j : Job) : Bool := j.atChannel d0.zones[z].measChannel || j.seenBy z

theorem ofAgingZone_handedOn (d0 : Device) (z : Fin 12) (ws : List Job) (d : Device) (j : Job) (m : TermSet) :
    (handedOn d (act ws d j) m).filter (Job.ofAgingZone d0 z) = (act ws d j).next.filter (Job.ofAgingZone d0 z) :=
  handedOn_filter (fun _ _ _ h => by cases h <;> simp [Job.ofAgingZone, Job.atChannel, Job.seenBy, Job.block]) d _ m

theorem channelChange_next {ws : List Job} {d : Device} {c i : Fin 32} {x : Channel} {vs : List Validity} {y : Job}
    (h : y ∈ (act ws d (.channelChange c x vs)).next) : y.atChannel i = false := by
  cases mem_act_next h <;> rfl

/-- What the change hands on to the zone: the validities, in their order. -/
theorem channelChange_ofAgingZone {d0 d : Device} {z : Fin 12} (h : d.zones[z].measChannel = d0.zones[z].measChannel) (ws : List Job)
    (x : Channel) (vs : List Validity) :
    (act ws d (.channelChange d0.zones[z].measChannel x vs)).next.filter (Job.ofAgingZone d0 z) = vs.map (.zoneValidity z) := by
  rw [← channelChange_seenBy ws d z x vs, h]
  exact List.filter_congr fun y hy => by rw [Job.ofAgingZone, channelChange_next hy, Bool.false_or]

/-- An event that is not the zone's keeps the stage. -/
theorem AgingZone.keep {d0 d d' : Device} {z : Fin 12} {ts : List Job} (h : AgingZone d0 z d ts) (hu : d'.Unread)
    (hc : d'.port.cycleCount = d.port.cycleCount) (hg : d.events.Grows (fun _ => True) d'.events)
    (hch : d'.channels[d0.zones[z].measChannel] = d.channels[d0.zones[z].measChannel]) (hz : d'.zones[z] = d.zones[z]) : AgingZone d0 z d' ts where
  unread := hu
  cycleCount := hc.trans h.cycleCount
  grows := h.grows.trans hg
  stage := by
    intro c x
    rcases h.stage with ⟨hts, hx, hy⟩ | ⟨hts, hy⟩ | ⟨seen, rest, hp, hts, hy, hstale, hfailed⟩
    · exact .inl ⟨hts, hch.trans hx, hz.trans hy⟩
    · exact .inr (.inl ⟨hts, hz.trans hy⟩)
    · exact .inr (.inr ⟨seen, rest, hp, hts, hz.trans hy, fun h1 h2 => (hstale h1 h2).grows hg, fun h1 h2 => (hfailed h1 h2).grows hg⟩)

/-- The zone sees one of the validities that wait for it. -/
theorem AgingZone.sees {d0 d : Device} {z : Fin 12} {v : Validity} {ts ws : List Job} {m : TermSet} (h : AgingZone d0 z d (.zoneValidity z v :: ts)) :
    AgingZone d0 z (settled d (act ws d (.zoneValidity z v)) m) ts := by
  obtain ⟨hu, hc, hg, hstage⟩ := h
  have hterm : ∀ i, Job.zoneValidity z v ≠ .deferredTerm i := by simp
  have hgrows : d.events.Grows (fun _ => True) (settled d (act ws d (.zoneValidity z v)) m).events := (event_grows ws d _ m).any
  refine ⟨hu.kept ws hterm m, (settled_act_spares ws d _ m).cycleCount.trans hc, hg.trans hgrows, .inr (.inr ?_)⟩
  rcases hstage with ⟨hts, -⟩ | ⟨hts, -⟩ | ⟨seen, rest, hp, hts, hy, hstale, hfailed⟩
  · cases hts
  · cases hts
  obtain ⟨rest', hrest, hts'⟩ := perm_erase_map (f := .zoneValidity z) (fun a b hab => (Job.zoneValidity.inj hab).2) hts
  have hp' : ((seen ++ [v]) ++ rest').Perm d0.channels[d0.zones[z].measChannel].tickValidities := by
    rw [List.append_assoc]
    exact ((hrest.symm).append_left seen).trans hp
  have hv : v = .stale ∨ v = .failed := Channel.tickValidities_mem (hp'.mem_iff.mp (by simp))
  have hseen : ∀ u ∈ seen, u = .stale ∨ u = .failed := fun u hu => Channel.tickValidities_mem (hp'.mem_iff.mp (by simp [hu]))
  have hact : (settled d (act ws d (.zoneValidity z v)) m).zones[z] = d.zones[z].sees v := by
    obtain ⟨_, _, _, _, hs⟩ := settled_frame d (act ws d (.zoneValidity z v)) m
    rw [hs]
    exact d.zoneSeesValidity_zone z hv _
  refine ⟨seen ++ [v], rest', hp', hts', by rw [hact, hy, List.foldl_append]; rfl, fun hs hm => ?_, fun hf hm => ?_⟩
  · obtain ⟨rfl, rfl⟩ : seen = [] ∧ v = .stale := by simpa using List.append_eq_singleton_iff.mp hs
    have hm' : d.zones[z].mode = .preheat ∨ d.zones[z].mode = .track := by rw [hy]; exact hm
    have := (Device.zoneSeesValidity_hold hm' (d.demandSeen ws z))
    rw [hc] at this
    exact told_settled hterm (this.earlier hg) m
  · by_cases hbefore : .failed ∈ seen
    · exact (hfailed hbefore hm).grows hgrows
    · have hvf : v = .failed := by
        rcases List.mem_append.mp hf with h | h
        · exact absurd h hbefore
        · exact (List.mem_singleton.mp h).symm
      have hm' : d.zones[z].mode.fails := by
        rw [hy]
        exact Zone.foldl_sees_stale hm seen fun u hu => (hseen u hu).resolve_right fun h => hbefore (h ▸ hu)
      have := d.faultZone_told z 1
      rw [hc, ← Device.zoneSeesValidity_fault hm' (d.demandSeen ws z)] at this
      rw [hvf]
      exact told_settled (by simp) (this.earlier hg) m

theorem agingZone_tracks (d0 : Device) (z : Fin 12) :
    Tracks (fun j n => OfAging d0.zones[z].measChannel j ∧ j.follow ≤ n) (Job.ofAgingZone d0 z) id (AgingZone d0 z) where
  perm hp h := { h with
    stage := h.stage.imp (fun ⟨hts, h⟩ => ⟨List.perm_singleton.mp (hts ▸ hp.symm), h⟩) (Or.imp
      (fun ⟨hts, h⟩ => ⟨List.perm_singleton.mp (hts ▸ hp.symm), h⟩) fun ⟨s, r, hs, hts, h⟩ => ⟨s, r, hs, hp.symm.trans hts, h⟩) }
  choices o h := { h with unread := h.unread.congr ⟨rfl, fun _ => rfl⟩ }
  act {ws d j n m} hj _ _ _ h := by
    obtain ⟨hj, hn⟩ := hj
    have hu := h.unread.kept ws hj.plain.1 m
    have hc := (settled_act_spares ws d j m).cycleCount
    have hg : d.events.Grows (fun _ => True) (settled d (act ws d j) m).events := (event_grows ws d j m).any
    rw [ofAgingZone_handedOn]
    have other : j.ofAgingZone d0 z = false → (act ws d j).next = [] → j.movesZone z = false →
        AgingZone d0 z (settled d (act ws d j) m) (ws.filter (Job.ofAgingZone d0 z) ++
          if n = 0 then [] else (act ws d j).next.filter (Job.ofAgingZone d0 z)) := fun ht hnext hmz => by
      rw [List.filter_cons_of_neg (by rw [ht]; simp)] at h
      rw [hnext, List.filter_nil, ite_self, List.append_nil]
      exact h.keep hu hc hg (event_channel ws d (.inl (Bool.or_eq_false_iff.mp ht).1) m) (event_zone ws d hmz m)
    cases hj with
    | loss => exact other rfl rfl rfl
    | permit => exact other rfl rfl rfl
    | sees y v =>
      by_cases hy : y = z
      · subst hy
        have hnext : (act ws d (.zoneValidity y v)).next = [] := rfl
        rw [List.filter_cons_of_pos (by simp [Job.ofAgingZone, Job.seenBy, Job.block])] at h
        rw [hnext, List.filter_nil, ite_self, List.append_nil]
        exact h.sees
      · exact other (by simp [Job.ofAgingZone, Job.atChannel, Job.seenBy, Job.block, hy]) rfl
          (by simp [Job.movesZone, Job.block, Block.zone, hy])
    | tick =>
      rw [List.filter_cons_of_pos (by simp [Job.ofAgingZone, Job.atChannel])] at h
      rcases h.stage with ⟨hts, hx, hy⟩ | ⟨hts, -⟩ | ⟨seen, rest, -, hts, -⟩
      · rw [(List.cons.inj hts).2, if_neg (by have : 2 ≤ n := hn; omega), (Job.brings_tick _ _).next ws d hx]
        refine ⟨hu, hc.trans h.cycleCount, h.grows.trans hg, .inr (.inl ⟨by simp [Job.ofAgingZone, Job.atChannel], ?_⟩)⟩
        rw [event_zone ws d rfl m, hy]
      · cases hts
      · have := hts.mem_iff.mp List.mem_cons_self
        simp at this
    | change x vs =>
      rw [List.filter_cons_of_pos (by simp [Job.ofAgingZone, Job.atChannel])] at h
      rcases h.stage with ⟨hts, -⟩ | ⟨hts, hy⟩ | ⟨seen, rest, -, hts, -⟩
      · cases hts
      · obtain ⟨hj, hws⟩ := List.cons.inj hts
        cases hj
        rw [hws, if_neg (by have : 1 ≤ n := hn; omega), channelChange_ofAgingZone (by rw [hy])]
        refine ⟨hu, hc.trans h.cycleCount, h.grows.trans hg, .inr (.inr ⟨[], _, by simp, .refl _, ?_, fun h => (by cases h), fun h => (by cases h)⟩)⟩
        rw [event_zone ws d rfl m, hy]
        rfl
      · have := hts.mem_iff.mp List.mem_cons_self
        simp at this
  handsOn hj _ _ h x hx := ⟨hj.1.handsOn h.unread hx, follow_handedOn hj.2 hx⟩
  command h := absurd rfl h.1.plain.2.1

end Sys2Proof.Machine

/-! The tracker where a channel ages, and the order of the zones' events. -/

namespace Sys2Proof.Machine

/-! ## The Speed Tracker -/

/-- The events that the tracker waits for. -/
def Job.ofAgingSpeed (c : Fin 32) (j : Job) : Bool := j.atChannel c || j.ofTracker

theorem ofAgingSpeed_handedOn (c : Fin 32) (ws : List Job) (d : Device) (j : Job) (m : TermSet) :
    (handedOn d (act ws d j) m).filter (Job.ofAgingSpeed c) = (act ws d j).next.filter (Job.ofAgingSpeed c) :=
  handedOn_filter (fun _ _ _ h => by cases h <;> rfl) d _ m

theorem validityJobs_ofAgingSpeed (d : Device) (c i : Fin 32) (old : Validity) (vs : List Validity) :
    (validityJobs d i old vs).filter (Job.ofAgingSpeed c) = if i = d.speed.speedChannel ∧ old = .fresh ∧ vs ≠ [] then [.speedLoss] else [] := by
  have hzones : (vs.flatMap fun v => ((List.finRange 12).filter fun z => d.zones[z].measChannel == i).map fun z => Job.zoneValidity z v).filter
      (Job.ofAgingSpeed c) = [] := by
    refine List.filter_eq_nil_iff.mpr fun x hx => ?_
    obtain ⟨v, -, hx⟩ := List.mem_flatMap.mp hx
    obtain ⟨z, -, rfl⟩ := List.mem_map.mp hx
    simp [Job.ofAgingSpeed, Job.atChannel, Job.ofTracker]
  unfold validityJobs
  rw [List.filter_append, hzones, List.append_nil]
  split <;> rfl

/-- The events that move no channel but this one. -/
def Job.onlyChannel (c : Fin 32) (j : Job) : Prop := j.ofChannel = true → j.atChannel c = true

theorem onlyChannel_handedOn {c : Fin 32} {ws : List Job} {d : Device} {j x : Job} {m : TermSet} (h : j.onlyChannel c)
    (hx : x ∈ handedOn d (act ws d j) m) : x.onlyChannel c := by
  intro hch
  rcases Machine.mem_handedOn hx with hx | hx
  · cases mem_act_next hx with
    | tick | sample => exact h rfl
    | _ => cases hch
  · cases hx <;> cases hch

/-- The tracker of `d0` while its channel `c` ages: the tick still waits, or the change, or the loss. -/
def AgingSpeed (d0 : Device) (c : Fin 32) (d : Device) (ts : List Job) : Prop :=
  let x := d0.channels[c]
  (ts = [.channelTick c] ∧ d.channels[c] = x ∧ d.speed = d0.speed)
    ∨ (ts = [.channelChange c x.tick.1 x.tickValidities] ∧ d.channels[c] = x ∧ d.speed = d0.speed)
    ∨ (ts = [.speedLoss] ∧ (c = d0.speed.speedChannel ∧ x.validity = .fresh ∧ x.tickValidities ≠ []) ∧ d.speed = d0.speed)
    ∨ (ts = [] ∧ d.speed = if c = d0.speed.speedChannel ∧ x.validity = .fresh ∧ x.tickValidities ≠ [] then d0.speed.lose else d0.speed)

theorem AgingSpeed.keep {d0 d d' : Device} {c : Fin 32} {ts : List Job} (h : AgingSpeed d0 c d ts) (hc : d'.channels[c] = d.channels[c])
    (hs : d'.speed = d.speed) : AgingSpeed d0 c d' ts := by
  unfold AgingSpeed at h ⊢
  rw [hc, hs]
  exact h

theorem ofAgingSpeed_next {ws : List Job} {d : Device} {j : Job} {c : Fin 32} (h : j.ofAgingSpeed c = false) (ho : j.onlyChannel c) :
    (act ws d j).next.filter (Job.ofAgingSpeed c) = [] := by
  have hn : j.ofChannel = false := by
    cases hc : j.ofChannel with
    | false => rfl
    | true => rw [Job.ofAgingSpeed, ho hc] at h; cases h
  refine List.filter_eq_nil_iff.mpr fun x hx hx' => ?_
  cases mem_act_next hx with
  | tick | sample | loss | validity => cases hn
  | _ => cases hx'

theorem agingSpeed_tracks (d0 : Device) (c : Fin 32) :
    Tracks (fun j n => j ≠ .command ∧ j.follow ≤ n ∧ j.onlyChannel c) (Job.ofAgingSpeed c) id (AgingSpeed d0 c) where
  perm hp h := by
    rcases h with ⟨rfl, h⟩ | ⟨rfl, h⟩ | ⟨rfl, h⟩ | ⟨rfl, h⟩
    · exact .inl ⟨(List.singleton_perm.mp hp).symm, h⟩
    · exact .inr (.inl ⟨(List.singleton_perm.mp hp).symm, h⟩)
    · exact .inr (.inr (.inl ⟨(List.singleton_perm.mp hp).symm, h⟩))
    · exact .inr (.inr (.inr ⟨List.nil_perm.mp hp, h⟩))
  choices o h := h
  act {ws d j n m} hj _ _ _ h := by
    obtain ⟨hcmd, hn, ho⟩ := hj
    rw [ofAgingSpeed_handedOn]
    cases hk : j.ofAgingSpeed c with
    | false =>
      rw [List.filter_cons_of_neg (by rw [hk]; simp)] at h
      rw [ofAgingSpeed_next hk ho, ite_self, List.append_nil]
      obtain ⟨hc, ht⟩ := Bool.or_eq_false_iff.mp hk
      exact h.keep (event_channel ws d (.inl hc) m) ((settled_act_spares ws d j m).speed ht)
    | true =>
      rw [List.filter_cons_of_pos hk] at h
      rcases h with ⟨hts, hx, hs⟩ | ⟨hts, hx, hs⟩ | ⟨hts, hl, hs⟩ | ⟨hts, -⟩
      · obtain ⟨rfl, hws⟩ := List.cons.inj hts
        rw [hws, if_neg (by have : 2 ≤ n := hn; omega), (Job.brings_tick _ _).next ws d hx]
        exact .inr (.inl ⟨by simp [Job.ofAgingSpeed, Job.atChannel], (event_channel ws d (.inr rfl) m).trans hx,
          ((settled_act_spares ws d _ m).speed rfl).trans hs⟩)
      · obtain ⟨rfl, hws⟩ := List.cons.inj hts
        have hspeed : (settled d (act ws d (.channelChange c d0.channels[c].tick.1 d0.channels[c].tickValidities)) m).speed = d0.speed :=
          ((settled_act_spares ws d _ m).speed rfl).trans hs
        have hnext : (act ws d (.channelChange c d0.channels[c].tick.1 d0.channels[c].tickValidities)).next.filter (Job.ofAgingSpeed c) =
            if c = d0.speed.speedChannel ∧ d0.channels[c].validity = .fresh ∧ d0.channels[c].tickValidities ≠ [] then [.speedLoss] else [] := by
          rw [← hs, ← hx]
          exact validityJobs_ofAgingSpeed d c c _ _
        rw [hws, if_neg (by have : 1 ≤ n := hn; omega), hnext]
        by_cases hl : c = d0.speed.speedChannel ∧ d0.channels[c].validity = .fresh ∧ d0.channels[c].tickValidities ≠ []
        · exact .inr (.inr (.inl ⟨if_pos hl, hl, hspeed⟩))
        · exact .inr (.inr (.inr ⟨if_neg hl, hspeed.trans (if_neg hl).symm⟩))
      · obtain ⟨rfl, hws⟩ := List.cons.inj hts
        have hnext : (act ws d .speedLoss).next = [] := rfl
        rw [hws, hnext, List.filter_nil, ite_self]
        refine .inr (.inr (.inr ⟨rfl, ?_⟩))
        obtain ⟨_, _, _, _, he⟩ := settled_frame d (act ws d .speedLoss) m
        rw [if_pos hl, he, ← hs]
        rfl
      · cases hts
  handsOn {ws d j n m} hj _ _ _ y hy :=
    ⟨fun hc => (by subst hc; cases fromOutside_of_mem_handedOn hy), follow_handedOn hj.2.1 hy, onlyChannel_handedOn hj.2.2 hy⟩
  command h := absurd rfl h.1

end Sys2Proof.Machine

/-! The zones' faults where a channel fails: after the channel's own event, and in ascending index (R103). -/

namespace Sys2Proof.Machine

/-! ## What is offered to the queue, in its order -/

/-- The record that an event raised now is. -/
def Device.record (d : Device) (kind : EventKind) (source : Nat) (value : Word) : EventRecord :=
  { kind := kind, source := BitVec.ofNat 8 source, stamp := d.port.cycleCount, value := value }

theorem Device.raiseAll_takes (n : Nat) (evs : List (EventKind × Word)) (d : Device) :
    (d.raiseAll n evs).events = (evs.map fun e => d.record e.1 n e.2).foldl EventQueue.offer d.events := by
  induction evs generalizing d with
  | nil => rfl
  | cons e es ih => exact ih (d.raise e.1 n e.2)

/-- R188: of two events raised in either order, one is the given one. -/
theorem Device.raiseEither_takes (d : Device) (o : Option (EventKind × Nat × Word)) {k : EventKind} (ho : ∀ x ∈ o, x.1 = k)
    (e : EventKind × Nat × Word) : ∃ l r, (d.raiseEither o e).events = (l ++ d.record e.1 e.2.1 e.2.2 :: r).foldl EventQueue.offer d.events
      ∧ ∀ x ∈ l ++ r, x.kind = k := by
  cases o with
  | none => exact ⟨[], [], rfl, by simp⟩
  | some x =>
    have hx : (d.record x.1 x.2.1 x.2.2).kind = k := ho x rfl
    obtain ⟨c, hc⟩ := d.choose_dev 2
    unfold Device.raiseEither
    simp only [hc]
    split
    · exact ⟨[d.record x.1 x.2.1 x.2.2], [], rfl, by simpa using hx⟩
    · exact ⟨[], [d.record x.1 x.2.1 x.2.2], rfl, by simpa using hx⟩

/-- R86: a zone's entry into FAULT raises ZONE_FAULT once, and beside it at most the end of a commit. -/
theorem Device.faultZone_takes (d : Device) (z : Fin 12) (v : Word) :
    ∃ l r, (d.faultZone z v).events = (l ++ d.record .zoneFault z.val v :: r).foldl EventQueue.offer d.events
      ∧ ∀ x ∈ l ++ r, x.kind = .commitDone := by
  obtain ⟨hq, hp⟩ := d.clearMark_queue z false
  obtain ⟨l, r, h, hk⟩ := Device.raiseEither_takes ((d.clearMark z false).1.setZone z (d.clearMark z false).1.zones[z].toFault)
    (d.clearMark z false).2 (d.clearMark_event z false) (.zoneFault, z.val, v)
  rw [Device.setZone_events, hq, Device.record, Device.setZone_port, hp] at h
  exact ⟨l, r, h, hk⟩

/-! ## In its turn, the lowest zone -/

/-- R103: a zone that is not settled sees its channel before no lower zone still has to. -/
theorem Job.InTurn.lowest {d : Device} {ws : List Job} {z : Fin 12} {v : Validity} (h : (Job.zoneValidity z v).InTurn d ws)
    (hb : .zonesBreak ∉ ws) (hz : d.zones[z].mode.fails) : ∀ y u, .zoneValidity y u ∈ ws → z ≤ y := by
  obtain ⟨o, h | ⟨xs, hp, h⟩⟩ := h
  · rw [Job.quiet_choices] at h
    have hs : d.zones[z].settledMode = true := by
      have hq : (Job.zoneValidity z v).quiet d = ((d.zones[z].settledMode && !(d.zones[z].mode == .purge && v == .failed)) || false) := rfl
      rw [hq, Bool.or_false] at h
      exact (Bool.and_eq_true_iff.mp h).1
    unfold Zone.settledMode at hs
    rcases hz with hz | hz | hz <;> rw [hz] at hs <;> cases hs
  · intro y u hy
    have hnb : xs.contains .zonesBreak = false := by
      rw [Bool.eq_false_iff]
      intro hc
      rcases List.mem_cons.mp (hp.mem_iff.mp (List.contains_iff_mem.mp hc)) with hc | hc
      · cases hc
      · exact hb hc
    have hw := (Bool.or_eq_false_iff.mp h).2
    unfold Job.waitsForLowerZone at hw
    simp only [Job.zoneEvent, hnb, Bool.false_eq_true, if_false] at hw
    have := List.any_eq_false.mp (Bool.or_eq_false_iff.mp hw).1 _ (hp.mem_iff.mpr (List.mem_cons_of_mem _ hy))
    simp only [Option.any_some, Bool.or_eq_true, decide_eq_true_eq, not_or] at this
    exact not_lt.mp this.1.1

/-! ## The faults in order -/

/-- The record is a ZONE_FAULT. -/
def EventRecord.isFault (e : EventRecord) : Bool := decide (e.kind = .zoneFault)

/-- What has been offered since the channel failed: its own event before any fault of a zone, the faults in ascending index, and none of a zone
above one that still has to see the failure. -/
structure FaultsInOrder (d : Device) (ts : List Job) (es : List EventRecord) : Prop where
  ascending : ((es.filter EventRecord.isFault).map fun e => e.source.toNat).Pairwise (· < ·)
  seen : ∀ e ∈ es, e.isFault = true → ∃ a : Fin 12, e.source.toNat = a.val ∧ d.zones[a].mode = .fault ∧ ∀ z v, .zoneValidity z v ∈ ts → a ≤ z
  first : ∃ pre post, es = pre ++ post ∧ (∃ f ∈ pre, f.kind = .channelFailed) ∧ ∀ e ∈ pre, e.isFault = false

theorem FaultsInOrder.none {d : Device} {ts : List Job} {es : List EventRecord} (h : ∀ e ∈ es, e.isFault = false)
    (hf : ∃ f ∈ es, f.kind = .channelFailed) : FaultsInOrder d ts es where
  ascending := by rw [List.filter_eq_nil_iff.mpr fun e he => by simp [h e he]]; exact .nil
  seen e he hfault := by rw [h e he] at hfault; cases hfault
  first := ⟨es, [], (List.append_nil _).symm, hf, h⟩

/-- Further records that are no fault, while zones in FAULT stay there and no zone has more to see. -/
theorem FaultsInOrder.more {d d' : Device} {ts ts' : List Job} {es l : List EventRecord} (h : FaultsInOrder d ts es)
    (hl : ∀ e ∈ l, e.isFault = false) (hz : ∀ a : Fin 12, d.zones[a].mode = .fault → d'.zones[a].mode = .fault) (hts : ∀ j ∈ ts', j ∈ ts) :
    FaultsInOrder d' ts' (es ++ l) where
  ascending := by
    have hnone : l.filter EventRecord.isFault = [] := List.filter_eq_nil_iff.mpr fun e he => by simp [hl e he]
    rw [List.filter_append, hnone, List.append_nil]
    exact h.ascending
  seen e he hfault := by
    rcases List.mem_append.mp he with he | he
    · obtain ⟨a, ha, hm, hle⟩ := h.seen e he hfault
      exact ⟨a, ha, hz a hm, fun z v hj => hle z v (hts _ hj)⟩
    · rw [hl e he] at hfault
      cases hfault
  first := by
    obtain ⟨pre, post, rfl, hf, hpre⟩ := h.first
    exact ⟨pre, post ++ l, List.append_assoc _ _ _, hf, hpre⟩

/-- The fault of the lowest zone that had to see the failure. -/
theorem FaultsInOrder.fault {d d' : Device} {ts ts' : List Job} {es : List EventRecord} {z : Fin 12} {e : EventRecord} (h : FaultsInOrder d ts es)
    (he : e.isFault = true) (hs : e.source.toNat = z.val) (hz : d.zones[z].mode ≠ .fault) (hz' : d'.zones[z].mode = .fault)
    (hothers : ∀ a : Fin 12, a ≠ z → d'.zones[a].mode = d.zones[a].mode) (hmem : ∃ v, .zoneValidity z v ∈ ts)
    (hts : ∀ j ∈ ts', j ∈ ts) (hlow : ∀ y u, .zoneValidity y u ∈ ts' → z ≤ y) : FaultsInOrder d' ts' (es ++ [e]) where
  ascending := by
    rw [List.filter_append, List.map_append, List.pairwise_append]
    refine ⟨h.ascending, by simp [he], fun n hn n' hn' => ?_⟩
    obtain ⟨x, hx, rfl⟩ := List.mem_map.mp hn
    obtain ⟨hx, hxf⟩ := List.mem_filter.mp hx
    obtain ⟨a, ha, hm, hle⟩ := h.seen x hx hxf
    obtain ⟨v, hv⟩ := hmem
    have hn'' : n' = e.source.toNat := by simpa [he] using hn'
    have hne : a ≠ z := fun hne => hz (hne ▸ hm)
    rw [hn'', hs, ha]
    exact Fin.lt_def.mp (lt_of_le_of_ne (hle z v hv) hne)
  seen x hx hfault := by
    rcases List.mem_append.mp hx with hx | hx
    · obtain ⟨a, ha, hm, hle⟩ := h.seen x hx hfault
      refine ⟨a, ha, ?_, fun y u hj => hle y u (hts _ hj)⟩
      rw [hothers a fun hne => hz (hne ▸ hm)]
      exact hm
    · rw [List.mem_singleton.mp hx]
      exact ⟨z, hs, hz', hlow⟩
  first := by
    obtain ⟨pre, post, rfl, hf, hpre⟩ := h.first
    exact ⟨pre, post ++ [e], List.append_assoc _ _ _, hf, hpre⟩

/-- The order holds of what has joined the queue, which is a first part of what was offered. -/
theorem FaultsInOrder.joined {d : Device} {ts : List Job} {es : List EventRecord} (h : FaultsInOrder d ts es) (n : Nat) :
    (((es.take n).filter EventRecord.isFault).map fun e => e.source.toNat).Pairwise (· < ·)
      ∧ ∀ before after e, es.take n = before ++ e :: after → e.kind = .zoneFault → ∃ f ∈ before, f.kind = .channelFailed := by
  refine ⟨h.ascending.sublist (((List.take_sublist n es).filter _).map _), fun before after e he hk => ?_⟩
  obtain ⟨pre, post, hes, ⟨f, hf, hfk⟩, hpre⟩ := h.first
  have hsplit : pre ++ post = before ++ e :: (after ++ es.drop n) := by
    rw [← hes, ← List.cons_append, ← List.append_assoc, ← he, List.take_append_drop]
  refine ⟨f, ?_, hfk⟩
  rcases List.append_eq_append_iff.mp hsplit with ⟨l, hb, -⟩ | ⟨l, hp, hl⟩
  · rw [hb]
    exact List.mem_append_left _ hf
  · cases l with
    | nil => rw [hp, List.append_nil] at hf; exact hf
    | cons x l =>
      have hx : e = x := (List.cons.inj hl).1
      have := hpre e (by rw [hp, hx]; simp)
      rw [EventRecord.isFault, hk] at this
      simp at this

/-! ## Following the failure -/

/-- The events that the zones wait for while the channel ages. -/
def Job.ofAgingZones (c : Fin 32) (j : Job) : Bool := j.atChannel c || (List.finRange 12).any fun z => j.seenBy z

theorem Job.seenByAny_iff {j : Job} : ((List.finRange 12).any fun z => j.seenBy z) = true ↔ ∃ z v, j = .zoneValidity z v := by
  simp only [List.any_eq_true, List.mem_finRange, true_and, Job.seenBy, beq_iff_eq]
  constructor
  · rintro ⟨z, hz⟩
    cases j
    case zoneValidity y v => exact ⟨y, v, rfl⟩
    all_goals cases hz
  · rintro ⟨z, v, rfl⟩
    exact ⟨z, rfl⟩

/-- A failing channel `c` of `d0`: the tick still waits, or the change, or what the zones have to see of it. -/
structure FailingChannel (d0 : Device) (c : Fin 32) (d : Device) (ts : List Job) : Prop where
  unread : d.Unread
  offered : ∃ es, d.events = es.foldl EventQueue.offer d0.events ∧
    ((ts = [.channelTick c] ∧ d.channels[c] = d0.channels[c] ∧ ∀ e ∈ es, e.isFault = false)
      ∨ ((∃ x vs, ts = [.channelChange c x vs]) ∧ (∀ e ∈ es, e.isFault = false) ∧ ∃ f ∈ es, f.kind = .channelFailed)
      ∨ ((∀ j ∈ ts, ∃ z v, j = .zoneValidity z v) ∧ FaultsInOrder d ts es))

theorem EventQueue.Grows.faultFree {p : EventRecord → Prop} {a b : EventQueue} (h : a.Grows p b) (hp : ∀ e, p e → e.kind ≠ .zoneFault) :
    ∃ l : List EventRecord, b = l.foldl EventQueue.offer a ∧ ∀ e ∈ l, e.isFault = false := by
  obtain ⟨l, hl, rfl⟩ := h
  exact ⟨l, rfl, fun e he => decide_eq_false (hp e (hl e he))⟩

/-- What a zone makes of a validity of its channel: a fault, where it can fail and the channel has; no fault otherwise. -/
theorem Device.zoneSeesValidity_faults (d : Device) (z : Fin 12) (v : Validity) (b : Bool) :
    (d.zoneSeesValidity z v b = d.faultZone z 1 ∧ d.zones[z].mode.fails)
      ∨ (d.events.Grows (fun e => e.kind ≠ .zoneFault) (d.zoneSeesValidity z v b).events
        ∧ (d.zones[z].mode = .fault → (d.zoneSeesValidity z v b).zones[z].mode = .fault)) := by
  have hold : ∀ {m : Mode}, m ≠ .fault → d.zones[z].mode = m → d.events.Grows (fun e => e.kind ≠ .zoneFault) (d.holdZone z 1).events
      ∧ (d.zones[z].mode = .fault → (d.holdZone z 1).zones[z].mode = .fault) := fun hm hz => by
    refine ⟨?_, fun h => absurd (hz.symm.trans h) hm⟩
    obtain ⟨hq, -⟩ := d.clearMark_queue z false
    obtain ⟨l, r, h, hk⟩ := Device.raiseEither_takes ((d.clearMark z false).1.setZone z
      ((d.clearMark z false).1.zones[z].toHold (d.clearMark z false).1.zones[z].mode.asReturn))
      (d.clearMark z false).2 (d.clearMark_event z false) (.zoneHold, z.val, 1)
    refine ⟨_, ?_, h.trans (by rw [Device.setZone_events, hq])⟩
    intro e he
    simp only [List.mem_append, List.mem_cons] at he
    rcases he with he | rfl | he
    · rw [hk e (List.mem_append_left _ he)]; exact EventKind.noConfusion
    · exact EventKind.noConfusion
    · rw [hk e (List.mem_append_right _ he)]; exact EventKind.noConfusion
  unfold Device.zoneSeesValidity
  dsimp only
  split
  case h_1 hm => exact .inr (hold Mode.noConfusion hm)
  case h_2 hm => exact .inr (hold Mode.noConfusion hm)
  case h_3 hm => exact .inl ⟨rfl, .inl hm⟩
  case h_4 hm => exact .inl ⟨rfl, .inr (.inl hm)⟩
  case h_5 hm => exact .inl ⟨rfl, .inr (.inr hm)⟩
  case h_6 hm => exact .inr ⟨.refl _, fun h => absurd (hm.symm.trans h) Mode.noConfusion⟩
  case h_7 hm =>
    refine .inr ⟨?_, fun h => absurd (hm.symm.trans h) Mode.noConfusion⟩
    split
    · exact .refl _
    · unfold Device.resumeZone
      dsimp only
      split
      · exact .refl _
      · exact .one _ EventKind.noConfusion
      · exact .one _ EventKind.noConfusion
  case h_8 => exact .inr ⟨.refl _, id⟩

/-- What the settlement of such an event raises is no fault. -/
theorem OfAging.settled_faultFree {c : Fin 32} {j : Job} (h : OfAging c j) (ws : List Job) (d : Device) (m : TermSet) :
    ∃ l : List EventRecord, (settled d (act ws d j) m).events = l.foldl EventQueue.offer (act ws d j).dev.events ∧ ∀ e ∈ l, e.isFault = false :=
  (settled_grows (act_network h.plain.1) m).faultFree fun e he hk => by rw [hk] at he; cases he

theorem ofAgingZones_handedOn (c : Fin 32) (ws : List Job) (d : Device) (j : Job) (m : TermSet) :
    (handedOn d (act ws d j) m).filter (Job.ofAgingZones c) = (act ws d j).next.filter (Job.ofAgingZones c) :=
  handedOn_filter (fun _ _ x h => by
    have hseen : ((List.finRange 12).any fun z => x.seenBy z) = false := Bool.eq_false_iff.mpr fun hs => by
      obtain ⟨z, v, rfl⟩ := Job.seenByAny_iff.mp hs
      cases h
    rw [Job.ofAgingZones, hseen, Bool.or_false]
    cases h <;> rfl) d _ m

/-- An event of no zone and of no channel keeps the order. -/
theorem FailingChannel.other {d0 d : Device} {c : Fin 32} {ws ts : List Job} {j : Job} {m : TermSet} (hj : OfAging c j)
    (hc : j.atChannel c = false) (hz : ∀ z, j.movesZone z = false) (hr : ∀ k, j.raises k = true → k ≠ .zoneFault)
    (h : FailingChannel d0 c d ts) : FailingChannel d0 c (settled d (act ws d j) m) ts := by
  obtain ⟨hu, es, hes, h⟩ := h
  obtain ⟨l, hl, hfree⟩ := (event_grows ws d j m).faultFree fun e he =>
    he.elim (hr e.kind) fun hk h0 => by rw [h0] at hk; cases hk
  have hzone : ∀ a : Fin 12, (settled d (act ws d j) m).zones[a] = d.zones[a] := fun a => event_zone ws d (hz a) m
  have hall : (∀ e ∈ es, e.isFault = false) → ∀ e ∈ es ++ l, e.isFault = false := fun h0 e he => (List.mem_append.mp he).elim (h0 e) (hfree e)
  refine ⟨hu.kept ws hj.plain.1 m, es ++ l, by rw [hl, hes, List.foldl_append], ?_⟩
  rcases h with ⟨hts, hx, hnone⟩ | ⟨hts, hnone, f, hf, hfk⟩ | ⟨hts, ho⟩
  · exact .inl ⟨hts, (event_channel ws d (.inl hc) m).trans hx, hall hnone⟩
  · exact .inr (.inl ⟨hts, hall hnone, f, List.mem_append_left _ hf, hfk⟩)
  · exact .inr (.inr ⟨hts, ho.more hfree (fun a ha => by rw [hzone a]; exact ha) fun _ h => h⟩)

/-- The channel's tick raises CHANNEL_FAILED. -/
theorem FailingChannel.tick {d0 d : Device} {c : Fin 32} {ws : List Job} {m : TermSet} (hf : (.channelFailed, 2) ∈ d0.channels[c].tick.2)
    (h : FailingChannel d0 c d [.channelTick c]) :
    FailingChannel d0 c (settled d (act ws d (.channelTick c)) m) [.channelChange c d0.channels[c].tick.1 d0.channels[c].tickValidities] := by
  obtain ⟨hu, es, hes, ⟨-, hx, hnone⟩ | ⟨⟨x, vs, hts⟩, -⟩ | ⟨hts, -⟩⟩ := h
  · obtain ⟨l, hl, hfree⟩ := OfAging.tick.settled_faultFree ws d m
    have htick : (act ws d (.channelTick c)).dev.events =
        (d0.channels[c].tick.2.map fun e => d.record e.1 c.val e.2).foldl EventQueue.offer d.events := by
      rw [← hx]
      exact d.raiseAll_takes c.val _
    refine ⟨hu.kept ws (by simp) m, es ++ (d0.channels[c].tick.2.map fun e => d.record e.1 c.val e.2) ++ l,
      by rw [hl, htick, hes, List.foldl_append, List.foldl_append], .inr (.inl ⟨⟨_, _, rfl⟩, fun e he => ?_, ?_⟩)⟩
    · rcases List.mem_append.mp he with he | he
      · rcases List.mem_append.mp he with he | he
        · exact hnone e he
        · obtain ⟨x, hx, rfl⟩ := List.mem_map.mp he
          have hk := d0.channels[c].tick_kinds x hx
          exact decide_eq_false fun h0 => by rw [show x.1 = .zoneFault from h0] at hk; cases hk
      · exact hfree e he
    · exact ⟨d.record .channelFailed c.val 2, List.mem_append_left _ (List.mem_append_right _ (List.mem_map_of_mem hf)), rfl⟩
  · cases hts
  · obtain ⟨z, v, hz⟩ := hts _ List.mem_cons_self
    cases hz

/-- The change is handed on to the zones. -/
theorem FailingChannel.change {d0 d : Device} {c : Fin 32} {x : Channel} {vs : List Validity} {ws ts : List Job} {m : TermSet}
    (h : FailingChannel d0 c d [.channelChange c x vs]) (hts : ∀ j ∈ ts, ∃ z v, j = .zoneValidity z v) :
    FailingChannel d0 c (settled d (act ws d (.channelChange c x vs)) m) ts := by
  obtain ⟨hu, es, hes, ⟨hts0, -⟩ | ⟨-, hnone, f, hf, hfk⟩ | ⟨hts0, -⟩⟩ := h
  · cases hts0
  · obtain ⟨l, hl, hfree⟩ := (OfAging.change x vs).settled_faultFree (c := c) ws d m
    refine ⟨hu.kept ws (by simp) m, es ++ l, by rw [hl, List.foldl_append, ← hes]; rfl, .inr (.inr ⟨hts, .none (fun e he => ?_) ?_⟩)⟩
    · exact (List.mem_append.mp he).elim (hnone e) (hfree e)
    · exact ⟨f, List.mem_append_left _ hf, hfk⟩
  · obtain ⟨z, v, hz⟩ := hts0 _ List.mem_cons_self
    cases hz

/-- A zone sees what its channel has come to, in its turn. -/
theorem FailingChannel.sees {d0 d : Device} {c : Fin 32} {z : Fin 12} {v : Validity} {ws ts : List Job} {m : TermSet}
    (h : FailingChannel d0 c d (.zoneValidity z v :: ts)) (hlow : d.zones[z].mode.fails → ∀ y u, .zoneValidity y u ∈ ts → z ≤ y) :
    FailingChannel d0 c (settled d (act ws d (.zoneValidity z v)) m) ts := by
  obtain ⟨hu, es, hes, ⟨hts, -⟩ | ⟨⟨x, vs, hts⟩, -⟩ | ⟨hts, ho⟩⟩ := h
  · cases hts
  · cases hts
  obtain ⟨l, hl, hfree⟩ := (OfAging.sees z v).settled_faultFree (c := c) ws d m
  have hothers : ∀ a : Fin 12, a ≠ z → (settled d (act ws d (.zoneValidity z v)) m).zones[a].mode = d.zones[a].mode := fun a ha => by
    rw [event_zone ws d (by simp [Job.movesZone, Job.block, Block.zone, Ne.symm ha]) m]
  have hzone : (settled d (act ws d (.zoneValidity z v)) m).zones = (d.zoneSeesValidity z v (d.demandSeen ws z)).zones := by
    obtain ⟨_, _, _, _, hs⟩ := settled_frame d (act ws d (.zoneValidity z v)) m
    rw [hs]
    rfl
  have hev : (act ws d (.zoneValidity z v)).dev.events = (d.zoneSeesValidity z v (d.demandSeen ws z)).events := rfl
  have hts' : ∀ j ∈ ts, ∃ z v, j = .zoneValidity z v := fun j hj => hts j (List.mem_cons_of_mem _ hj)
  have hsub : ∀ j ∈ ts, j ∈ Job.zoneValidity z v :: ts := fun j hj => List.mem_cons_of_mem _ hj
  rcases d.zoneSeesValidity_faults z v (d.demandSeen ws z) with ⟨hfault, hm⟩ | ⟨hgrows, hstay⟩
  · obtain ⟨before, after, hq, hk⟩ := d.faultZone_takes z 1
    have hquiet : ∀ e ∈ before ++ after, e.isFault = false := fun e he => decide_eq_false fun h0 => by
      rw [hk e he] at h0
      cases h0
    rw [hev, hfault, hq] at hl
    have hmode : (settled d (act ws d (.zoneValidity z v)) m).zones[z].mode = .fault := by
      rw [hzone, hfault, d.faultZone_zone z 1]
      rfl
    have h1 := ho.more (d' := d) (ts' := .zoneValidity z v :: ts) (l := before) (fun e he => hquiet e (List.mem_append_left _ he))
      (fun _ h => h) fun _ h => h
    have h2 := h1.fault (e := d.record .zoneFault z.val 1) (z := z) (d' := settled d (act ws d (.zoneValidity z v)) m) (ts' := ts) rfl
      (by have := z.isLt; simp only [Device.record, BitVec.toNat_ofNat]; omega)
      (fun h0 => by rcases hm with hm | hm | hm <;> rw [hm] at h0 <;> cases h0) hmode hothers ⟨v, List.mem_cons_self⟩ hsub (hlow hm)
    have h3 := h2.more (d' := settled d (act ws d (.zoneValidity z v)) m) (ts' := ts) (l := after ++ l)
      (fun e he => (List.mem_append.mp he).elim (fun he => hquiet e (List.mem_append_right _ he)) (hfree e)) (fun _ h => h) fun _ h => h
    refine ⟨hu.kept ws (by simp) m, _, ?_, .inr (.inr ⟨hts', h3⟩)⟩
    rw [hl, hes]
    simp only [List.foldl_append, List.foldl_cons, List.foldl_nil]
  · obtain ⟨l', hl', hfree'⟩ := hgrows.faultFree fun _ h => h
    rw [hev, hl'] at hl
    refine ⟨hu.kept ws (by simp) m, es ++ (l' ++ l), by rw [hl, hes, List.foldl_append, List.foldl_append], .inr (.inr ⟨hts', ho.more ?_ ?_ hsub⟩)⟩
    · exact fun e he => (List.mem_append.mp he).elim (hfree' e) (hfree e)
    · intro a ha
      by_cases haz : a = z
      · subst haz
        rw [hzone]
        exact hstay ha
      · rw [hothers a haz]
        exact ha

theorem failing_tracks {d0 : Device} {c : Fin 32} (hf : (.channelFailed, 2) ∈ d0.channels[c].tick.2) :
    Tracks (fun j n => OfAging c j ∧ j.follow ≤ n) (Job.ofAgingZones c) id (FailingChannel d0 c) where
  perm {d ts ts'} hp h := by
    obtain ⟨hu, es, hes, h⟩ := h
    refine ⟨hu, es, hes, h.imp (fun ⟨hts, h⟩ => ⟨List.perm_singleton.mp (hts ▸ hp.symm), h⟩) (Or.imp
      (fun ⟨⟨x, vs, hts⟩, h⟩ => ⟨⟨x, vs, List.perm_singleton.mp (hts ▸ hp.symm)⟩, h⟩) fun ⟨hts, h⟩ => ⟨fun j hj => hts j (hp.mem_iff.mpr hj), ?_⟩)⟩
    have := h.more (d' := d) (ts' := ts') (l := []) (by simp) (fun _ h => h) fun j hj => hp.mem_iff.mpr hj
    rwa [List.append_nil] at this
  choices {d ts} o h := by
    obtain ⟨hu, es, hes, h⟩ := h
    refine ⟨hu.congr ⟨rfl, fun _ => rfl⟩, es, hes, h.imp_right (Or.imp_right fun ⟨hts, h⟩ => ⟨hts, ?_⟩)⟩
    have := h.more (d' := { d with choices := o }) (ts' := ts) (l := []) (by simp) (fun _ h => h) fun _ h => h
    rwa [List.append_nil] at this
  act {ws d j n m} hj _ hws hturn h := by
    obtain ⟨hj, hn⟩ := hj
    have hbreak : Job.zonesBreak ∉ ws := fun hb => by
      rcases hws _ hb with hb | ⟨_, hb, -⟩
      · cases hb
      · exact hb.plain.2.2 rfl
    rw [ofAgingZones_handedOn]
    have none : j.ofAgingZones c = false → (act ws d j).next = [] → (∀ z, j.movesZone z = false) → (∀ k, j.raises k = true → k ≠ .zoneFault) →
        FailingChannel d0 c (settled d (act ws d j) m) (ws.filter (Job.ofAgingZones c) ++
          if n = 0 then [] else (act ws d j).next.filter (Job.ofAgingZones c)) := fun ht hnext hz hr => by
      rw [List.filter_cons_of_neg (by rw [ht]; simp)] at h
      rw [hnext, List.filter_nil, ite_self, List.append_nil]
      exact h.other hj (Bool.or_eq_false_iff.mp ht).1 hz hr
    cases hj with
    | loss => exact none (by simp [Job.ofAgingZones, Job.atChannel, Job.seenBy, Job.block]) rfl (fun _ => rfl) fun k hk => by cases hk
    | permit =>
      exact none (by simp [Job.ofAgingZones, Job.atChannel, Job.seenBy, Job.block]) rfl (fun _ => rfl)
        fun k hk h0 => by rw [h0] at hk; cases hk
    | tick =>
      rw [List.filter_cons_of_pos (by simp [Job.ofAgingZones, Job.atChannel])] at h
      obtain ⟨-, es, -, ⟨hts, hx, -⟩ | ⟨⟨x, vs, hts⟩, -⟩ | ⟨hts, -⟩⟩ := id h
      · rw [hts] at h
        rw [(List.cons.inj hts).2, if_neg (by have : 2 ≤ n := hn; omega), (Job.brings_tick _ _).next ws d hx,
          List.filter_cons_of_pos (by simp [Job.ofAgingZones, Job.atChannel])]
        exact h.tick hf
      · cases hts
      · obtain ⟨z, v, hz⟩ := hts _ List.mem_cons_self
        cases hz
    | change x vs =>
      rw [List.filter_cons_of_pos (by simp [Job.ofAgingZones, Job.atChannel])] at h
      obtain ⟨-, es, -, ⟨hts, -⟩ | ⟨⟨x', vs', hts⟩, -⟩ | ⟨hts, -⟩⟩ := id h
      · cases hts
      · rw [(List.cons.inj hts).2] at h ⊢
        refine h.change fun y hy => ?_
        rw [List.nil_append] at hy
        split at hy
        · cases hy
        · obtain ⟨hy, ht⟩ := List.mem_filter.mp hy
          rw [Job.ofAgingZones, channelChange_next hy, Bool.false_or] at ht
          exact Job.seenByAny_iff.mp ht
      · obtain ⟨z, v, hz⟩ := hts _ List.mem_cons_self
        cases hz
    | sees z v =>
      have hnext : (act ws d (.zoneValidity z v)).next = [] := rfl
      rw [List.filter_cons_of_pos (by rw [Job.ofAgingZones, Job.seenByAny_iff.mpr ⟨z, v, rfl⟩, Bool.or_true])] at h
      rw [hnext, List.filter_nil, ite_self, List.append_nil]
      exact h.sees fun hm y u hy => hturn.lowest hbreak hm y u (List.mem_of_mem_filter hy)
  handsOn hj _ _ h x hx := ⟨hj.1.handsOn h.unread hx, follow_handedOn hj.2 hx⟩
  command h := absurd rfl h.1.plain.2.1

end Sys2Proof.Machine

/-! The expiries at channels and at the Ring Port (O15). -/

namespace Sys2Proof.Machine

/-! ## What a tick brings a channel through -/

theorem Channel.tickValidities_none {x : Channel} (h : x.validity = .none) : x.tickValidities = [] := by
  unfold Channel.tickValidities
  rw [Channel.tick_none h]
  exact if_pos rfl

/-- R37: STALE, then FAILED. -/
theorem Channel.tickValidities_eq {x : Channel} (h : x.validity ≠ .none) : x.tickValidities =
    if x.validity ≠ .failed ∧ x.failLimit ≤ min 65535 (x.age + 1) then
      (if x.validity = .fresh ∧ x.staleLimit ≤ min 65535 (x.age + 1) then [.stale, .failed] else [.failed])
    else if x.validity = .fresh ∧ x.staleLimit ≤ min 65535 (x.age + 1) then [.stale] else [] := by
  obtain ⟨-, -, -, -, hval⟩ := Channel.tick_values h
  unfold Channel.tickValidities
  dsimp only
  rw [hval]
  by_cases hf : x.validity ≠ .failed ∧ x.failLimit ≤ min 65535 (x.age + 1)
  · simp only [if_pos hf]
    rw [if_neg hf.1]
    simp
  · simp only [if_neg hf]
    by_cases hs : x.validity = .fresh ∧ x.staleLimit ≤ min 65535 (x.age + 1)
    · simp only [if_pos hs]
      rw [if_neg (by rw [hs.1]; exact Validity.noConfusion), if_neg (by simp)]
    · simp only [if_neg hs, if_true]

/-- R37: the tick brings the channel to STALE where its staleLimit is reached from FRESH. -/
theorem Device.agesTo_stale (d : Device) (c : Fin 32) : d.agesTo c .stale = true ↔
    d.channels[c].validity = .fresh ∧ d.channels[c].staleLimit ≤ min 65535 (d.channels[c].age + 1) := by
  unfold Device.agesTo
  rw [List.contains_iff_mem]
  by_cases h : d.channels[c].validity = .none
  · rw [Channel.tickValidities_none h, h]
    simp
  · rw [Channel.tickValidities_eq h]
    split <;> split <;> simp_all

/-- R37: the tick brings the channel to FAILED where its failLimit is reached from FRESH or STALE. -/
theorem Device.agesTo_failed (d : Device) (c : Fin 32) : d.agesTo c .failed = true ↔
    (d.channels[c].validity = .fresh ∨ d.channels[c].validity = .stale) ∧ d.channels[c].failLimit ≤ min 65535 (d.channels[c].age + 1) := by
  have hval : (d.channels[c].validity = .fresh ∨ d.channels[c].validity = .stale) ↔
      d.channels[c].validity ≠ .none ∧ d.channels[c].validity ≠ .failed := by
    cases d.channels[c].validity <;> simp
  unfold Device.agesTo
  rw [List.contains_iff_mem, hval]
  by_cases h : d.channels[c].validity = .none
  · rw [Channel.tickValidities_none h, h]
    simp
  · rw [Channel.tickValidities_eq h]
    split <;> split <;> simp_all

/-- R37, R39: the events of the expiries. -/
theorem Channel.tick_tells_stale {x : Channel} (hs : x.validity = .fresh ∧ x.staleLimit ≤ min 65535 (x.age + 1)) (he : x.enableStale = true) :
    (.channelStale, toWord x.filtered) ∈ x.tick.2 := by
  have hstale : (EventKind.channelStale, toWord x.filtered) ∈ x.staleEvents := by
    unfold Channel.staleEvents
    rw [if_pos ⟨hs, he⟩]
    exact List.mem_singleton.mpr rfl
  rw [Channel.tick_eq (by rw [hs.1]; exact Validity.noConfusion)]
  split
  · exact List.mem_append_left _ hstale
  · exact hstale

theorem Channel.tick_tells_failed {x : Channel} (hn : x.validity ≠ .none) (hf : x.validity ≠ .failed ∧ x.failLimit ≤ min 65535 (x.age + 1)) :
    (.channelFailed, 2) ∈ x.tick.2 := by
  rw [Channel.tick_eq hn, if_pos hf]
  refine List.mem_append_right _ ?_
  unfold Channel.fail
  rw [if_neg (x.aged_failed_iff.mpr hf.1)]
  exact List.mem_cons_self

/-! ## The tick of one channel, followed to its end -/

theorem channelTick_modest (c : Fin 32) : (Job.channelTick c).Modest := fun _ _ _ h => by cases h

theorem channelTick_follow (c : Fin 32) : (Job.channelTick c).follow ≤ Config.generations := show 2 ≤ 255 by decide

theorem Device.ages_channel (d : Device) (c : Fin 32) : (d.runJob (.channelTick c)).channels[c] = d.channels[c].tick.1 := by
  have h := (channel_tracks c d.channels[c] d.channels[c].tick.1 d.channels[c].tickValidities).runJob d (.channelTick c) (by simp)
    (channelTick_modest c) ⟨by simp, channelTick_follow c⟩ (.inl ⟨_, by simp [Job.atChannel], Job.brings_tick c _, rfl⟩)
  rcases h with ⟨_, hts, -⟩ | ⟨hts, -⟩ | ⟨-, h⟩
  · cases hts
  · cases hts
  · exact h

theorem Device.ages_others (d : Device) {c i : Fin 32} (hi : i ≠ c) : (d.runJob (.channelTick c)).channels[i] = d.channels[i] := by
  have h := (channel_tracks i d.channels[i] d.channels[i] []).runJob d (.channelTick c) (by simp) (channelTick_modest c) ⟨by simp, channelTick_follow c⟩
    (.inr (.inr ⟨by simp [Job.atChannel, Ne.symm hi], rfl⟩))
  rcases h with ⟨_, hts, -⟩ | ⟨hts, -⟩ | ⟨-, h⟩
  · cases hts
  · cases hts
  · exact h

/-- R49: the tracker. -/
theorem Device.ages_speed (d : Device) (c : Fin 32) : (d.runJob (.channelTick c)).speed =
    if c = d.speed.speedChannel ∧ d.channels[c].validity = .fresh ∧ d.channels[c].tickValidities ≠ [] then d.speed.lose else d.speed := by
  have h := (agingSpeed_tracks d c).runJob d (.channelTick c) (by simp) (channelTick_modest c)
    ⟨by simp, channelTick_follow c, fun _ => by simp [Job.atChannel]⟩ (.inl ⟨by simp [Job.ofAgingSpeed, Job.atChannel], rfl, rfl⟩)
  rcases h with ⟨hts, -⟩ | ⟨hts, -⟩ | ⟨hts, -⟩ | ⟨-, h⟩
  · cases hts
  · cases hts
  · cases hts
  · exact h

/-- What has been told stays told. -/
theorem told_kept (q : EventQueue) (kind : EventKind) (source : Nat) (stamp : BitVec 32) (value : Word) :
    KeptByEvent (fun d => q.Told d.events kind source stamp value) fun _ => True where
  choose d n h := by
    obtain ⟨o, ho⟩ := d.choose_dev n
    rw [ho]
    exact h
  act ws d j m h _ := h.grows (event_grows ws d j m)
  handsOn _ _ _ _ _ _ _ _ := trivial

theorem Device.ages_told (d : Device) (c : Fin 32) : ∀ e ∈ d.channels[c].tick.2,
    d.events.Told (d.runJob (.channelTick c)).events e.1 c.val d.port.cycleCount e.2 := fun e he =>
  Device.runEffect_keeps (told_kept d.events e.1 c.val d.port.cycleCount e.2) d (act [] d (.channelTick c))
    (fun m => told_settled (ws := []) (by simp) (d.raiseAll_told c.val _ e he) m) fun _ _ _ => trivial

theorem OfAging.start (c : Fin 32) : OfAging c (.channelTick c) ∧ (Job.channelTick c).follow ≤ Config.generations := ⟨.tick, channelTick_follow c⟩

/-- R82, R86, R90: a zone that measures another channel stands. -/
theorem Device.ages_zone_other {d : Device} (hu : d.Unread) {c : Fin 32} {z : Fin 12} (h : d.zones[z].measChannel ≠ c) :
    (d.runJob (.channelTick c)).zones[z] = d.zones[z] :=
  ((zoneStands_tracks h).runJob d (.channelTick c) (by simp) (channelTick_modest c) .tick ⟨hu, by simp [Job.seenBy, Job.block], rfl⟩).2.2

/-- R82, R86, R90: a zone that measures the channel has seen all that it passed through, in some order. -/
theorem Device.ages_zone {d : Device} (hu : d.Unread) (z : Fin 12) : let t := d.runJob (.channelTick d.zones[z].measChannel)
    ∃ seen, seen.Perm d.channels[d.zones[z].measChannel].tickValidities ∧ t.zones[z] = seen.foldl Zone.sees d.zones[z]
      ∧ (seen = [.stale] → d.zones[z].mode = .preheat ∨ d.zones[z].mode = .track →
          d.events.Told t.events .zoneHold z.val d.port.cycleCount 1)
      ∧ (.failed ∈ seen → d.zones[z].mode.fails → d.events.Told t.events .zoneFault z.val d.port.cycleCount 1) := by
  intro t
  have h := (agingZone_tracks d z).runJob d (.channelTick d.zones[z].measChannel) (by simp) (channelTick_modest _) (OfAging.start _)
    ⟨hu, rfl, .refl _, .inl ⟨by simp [Job.ofAgingZone, Job.atChannel], rfl, rfl⟩⟩
  rcases h.stage with ⟨hts, -⟩ | ⟨hts, -⟩ | ⟨seen, rest, hp, hts, hz⟩
  · cases hts
  · cases hts
  · have hrest : rest = [] := List.map_eq_nil_iff.mp (List.nil_perm.mp hts)
    rw [hrest, List.append_nil] at hp
    exact ⟨seen, hp, hz⟩

/-- R103: the order of what has joined the queue. -/
theorem Device.ages_order {d : Device} (hu : d.Unread) {c : Fin 32} (hf : (.channelFailed, 2) ∈ d.channels[c].tick.2) :
    let joined := (d.runJob (.channelTick c)).events.records.drop d.events.records.length
    ((joined.filter fun e => e.kind = .zoneFault).map fun e => e.source.toNat).Pairwise (· < ·)
      ∧ ∀ (before after : List EventRecord) (e : EventRecord), joined = before ++ e :: after → e.kind = .zoneFault →
          ∃ f ∈ before, f.kind = .channelFailed := by
  intro joined
  obtain ⟨-, es, hes, ⟨hts, -⟩ | ⟨⟨_, _, hts⟩, -⟩ | ⟨-, ho⟩⟩ := (failing_tracks hf).runJob d (.channelTick c) (by simp) (channelTick_modest c)
    (OfAging.start c) ⟨hu, [], rfl, .inl ⟨by simp [Job.ofAgingZones, Job.atChannel], rfl, by simp⟩⟩
  · cases hts
  · cases hts
  · obtain ⟨n, hn, -⟩ := EventQueue.foldl_offer_records es d.events
    have hj : joined = es.take n := by
      show (d.runJob (.channelTick c)).events.records.drop _ = _
      rw [hes, hn, List.drop_left]
    rw [hj]
    exact ho.joined n

/-! ## What the zones come to -/

theorem perm_stale_failed {seen : List Validity} (h : seen.Perm [.stale, .failed]) : seen = [.stale, .failed] ∨ seen = [.failed, .stale] := by
  obtain ⟨a, b, rfl⟩ := List.length_eq_two.mp h.length_eq
  have ha : a = .stale ∨ a = .failed := by simpa using h.mem_iff.mp List.mem_cons_self
  rcases ha with rfl | rfl
  · exact .inl (by rw [List.perm_singleton.mp h.cons_inv])
  · exact .inr (by rw [List.perm_singleton.mp (h.trans (.swap _ _ _)).cons_inv])

theorem Zone.foldl_sees_failed {y : Zone} {seen : List Validity} (h : seen.Perm [.stale, .failed] ∨ seen.Perm [.failed]) :
    seen.foldl Zone.sees y = y.sees .failed ∧ .failed ∈ seen := by
  rcases h with h | h
  · rcases perm_stale_failed h with rfl | rfl
    · exact ⟨y.sees_both.1, by simp⟩
    · exact ⟨y.sees_both.2, by simp⟩
  · rw [List.perm_singleton.mp h]
    exact ⟨rfl, List.mem_singleton.mpr rfl⟩

/-- R82, R103: where the channel becomes STALE and no more. -/
theorem Device.ages_staleSeen {d : Device} (hu : d.Unread) {z : Fin 12} (hv : d.channels[d.zones[z].measChannel].tickValidities = [.stale]) :
    let t := d.runJob (.channelTick d.zones[z].measChannel)
    t.zones[z] = d.zones[z].sees .stale
      ∧ (d.zones[z].mode = .preheat ∨ d.zones[z].mode = .track → d.events.Told t.events .zoneHold z.val d.port.cycleCount 1) := by
  intro t
  obtain ⟨seen, hp, hz, hhold, -⟩ := d.ages_zone hu z
  rw [hv] at hp
  obtain rfl := List.perm_singleton.mp hp
  exact ⟨hz, hhold rfl⟩

/-- R86, R103: where the channel becomes FAILED. -/
theorem Device.ages_failureSeen {d : Device} (hu : d.Unread) {z : Fin 12}
    (hv : d.channels[d.zones[z].measChannel].tickValidities = [.stale, .failed] ∨ d.channels[d.zones[z].measChannel].tickValidities = [.failed]) :
    let t := d.runJob (.channelTick d.zones[z].measChannel)
    t.zones[z] = d.zones[z].sees .failed ∧ (d.zones[z].mode.fails → d.events.Told t.events .zoneFault z.val d.port.cycleCount 1) := by
  intro t
  obtain ⟨seen, hp, hz, -, hfault⟩ := d.ages_zone hu z
  obtain ⟨hsees, hmem⟩ := Zone.foldl_sees_failed (y := d.zones[z]) (hv.imp (fun h => h ▸ hp) fun h => h ▸ hp)
  exact ⟨hz.trans hsees, hfault hmem⟩

/-! ## The cycle timeout -/

theorem Device.timeoutTick_expires {d : Device} (h : d.port.timeoutCountdown = 1) :
    d.timeoutTick.port.timeoutCountdown = 0 ∧ d.timeoutTick.port.link = (if d.port.link = .locked then .lost else d.port.link)
      ∧ (d.port.link = .locked → d.timeoutTick.events = d.events.offer (d.record .linkLost 0 1))
      ∧ (d.port.link ≠ .locked → d.timeoutTick.events = d.events) := by
  unfold Device.timeoutTick
  dsimp only
  by_cases hl : d.port.link = .locked
  · rw [if_pos ⟨h, hl⟩, if_pos hl]
    exact ⟨by show d.port.timeoutCountdown - 1 = 0; omega, rfl, fun _ => rfl, fun hn => absurd hl hn⟩
  · rw [if_neg fun hc => hl hc.2, if_neg hl]
    exact ⟨by show d.port.timeoutCountdown - 1 = 0; omega, rfl, fun hn => absurd hn hl, fun _ => rfl⟩

theorem Device.timeout_link {d : Device} (h : d.port.timeoutCountdown = 1) :
    (d.runJob .timeoutTick).port.timeoutCountdown = 0
      ∧ (d.runJob .timeoutTick).port.link = (if d.port.link = .locked then .lost else d.port.link)
      ∧ (d.port.link = .locked → d.events.Told (d.runJob .timeoutTick).events .linkLost 0 d.port.cycleCount 1)
      ∧ (d.port.link ≠ .locked → d.events.Silent (d.runJob .timeoutTick).events .linkLost) := by
  obtain ⟨e, he, ht⟩ := Device.runRoots_link (d := d) (ℓ := .timeoutTick) rfl (roots := [.timeoutTick])
    (fun j hj c x vs hc => by rw [List.mem_singleton.mp hj] at hc; cases hc) (by simp) (by simp [Job.movesLink])
  replace ht : LinkStands e.timeoutTick (d.runJob .timeoutTick) := by rw [d.runRoots_single _ (by simp)] at ht; exact ht
  obtain ⟨hcount, hlink, hlost, hkept⟩ := Device.timeoutTick_expires (he.countdown.trans h)
  have hne : ∀ r : EventRecord, r.kind.ofLink = false → r.kind ≠ .linkLost := fun r hr h => by rw [h] at hr; cases hr
  refine ⟨ht.countdown.trans hcount, by rw [ht.link, hlink, he.link], fun hl => ?_, fun hl => ?_⟩
  · refine EventQueue.Told.grows ?_ ht.told
    rw [hlost (he.link.trans hl), Device.record, he.cycleCount]
    exact EventQueue.told_offer _ _ _ _ _ _ he.told.length_le
  · refine EventQueue.Grows.silent (p := fun r => r.kind ≠ .linkLost) ((he.told.mono hne).trans ?_) fun _ h => h
    rw [← hkept fun h => hl (he.link.symm.trans h)]
    exact ht.told.mono hne

theorem Device.timeout_channels (d : Device) : (d.runJob .timeoutTick).channels = d.channels :=
  (Device.runJob_keeps (undelivered_kept d) d .timeoutTick ⟨.refl d, List.prefix_rfl⟩ rfl).1.channels

theorem exec_channelAgeStale (c : Fin 32) (s : State) : exec (.channelAgeStale c) s =
    .next { s with dev := s.dev.occur (s.dev.agesTo c .stale) (s.dev.runJob (.channelTick c)) } := rfl

theorem exec_channelAgeFailed (c : Fin 32) (s : State) : exec (.channelAgeFailed c) s =
    .next { s with dev := s.dev.occur (s.dev.agesTo c .failed) (s.dev.runJob (.channelTick c)) } := rfl

theorem exec_cycleTimeoutExpiry (s : State) : exec .cycleTimeoutExpiry s =
    .next { s with dev := s.dev.occur (s.dev.port.timeoutCountdown == 1) (s.dev.runJob .timeoutTick) } := rfl

/-- Settles O15: the expiry is the tick at one unit, and each block that reads the unit follows it. -/
theorem ageAndTimeoutExpiries : Obligations.AgeAndTimeoutExpiries := by
  intro c s hr x age trackerFollows othersStand told staleSeen failureSeen failureTold
  have hne : x.validity = .fresh ∨ x.validity = .stale → x.validity ≠ .none ∧ x.validity ≠ .failed := fun h => by
    rcases h with h | h <;> rw [h] <;> exact ⟨Validity.noConfusion, Validity.noConfusion⟩
  have hvalues : x.validity ≠ .none → _ := fun h => Channel.tick_values (x := x) h
  have htracker : x.tickValidities ≠ [] → (s.dev.runJob (.channelTick c)).speed =
      if c = s.dev.speed.speedChannel ∧ x.validity = .fresh then { s.dev.speed with state := .unknown, history := [], a := 0 } else s.dev.speed :=
    fun hv => by
      rw [s.dev.ages_speed c]
      exact if_congr ⟨fun h => ⟨h.1, h.2.1⟩, fun h => ⟨h.1, h.2, hv⟩⟩ rfl rfl
  have hothers : s.dev.Unread → ∀ z : Fin 12, s.dev.zones[z].measChannel ≠ c → (s.dev.runJob (.channelTick c)).zones[z] = s.dev.zones[z] :=
    fun hu z hz => Device.ages_zone_other hu hz
  have hfailure : s.dev.Unread → (x.validity ≠ .none ∧ x.validity ≠ .failed) → x.failLimit ≤ age →
      failureSeen { s with dev := s.dev.runJob (.channelTick c) } ∧ failureTold { s with dev := s.dev.runJob (.channelTick c) } := by
    intro hu hn hf
    have hmem := Channel.tick_tells_failed hn.1 ⟨hn.2, hf⟩
    have hv : x.tickValidities = [.stale, .failed] ∨ x.tickValidities = [.failed] := by
      rw [Channel.tickValidities_eq hn.1, if_pos ⟨hn.2, hf⟩]
      split
      · exact .inl rfl
      · exact .inr rfl
    refine ⟨⟨hothers hu, fun z hz => ?_⟩, s.dev.ages_told c _ hmem, Device.ages_order hu hmem⟩
    subst hz
    obtain ⟨hzone, hfault⟩ := Device.ages_failureSeen hu hv
    refine ⟨fun hm => ⟨hzone.trans (Zone.sees_failed hm), hfault hm⟩, fun hm => hzone.trans (Zone.sees_failed_purge hm),
      fun hm => hzone.trans (Zone.sees_failed_other hm)⟩
  refine ⟨fun hfresh hstale => ?_, fun hval hfail => ?_, fun htime => ?_, fun h => ?_, fun h => ?_, fun h => ?_⟩
  · obtain ⟨hnone, hnf⟩ := hne (.inl hfresh)
    obtain ⟨hage, -, -, -, hvalid⟩ := hvalues hnone
    have hocc : s.dev.agesTo c .stale = true := (s.dev.agesTo_stale c).mpr ⟨hfresh, hstale⟩
    refine ⟨{ s with dev := s.dev.runJob (.channelTick c) }, by rw [exec_channelAgeStale, hocc, Device.occur_true hr], ?_, ?_,
      fun i hi => s.dev.ages_others hi, htracker ?_, fun he => s.dev.ages_told c _ (Channel.tick_tells_stale ⟨hfresh, hstale⟩ he),
      fun hu => ⟨fun hlt => ⟨hothers hu, fun z hz => ?_⟩, hfailure hu ⟨hnone, hnf⟩⟩⟩
    · rw [show (s.dev.runJob (.channelTick c)).channels[c] = _ from s.dev.ages_channel c, hvalid, if_pos (c := x.validity = .fresh ∧ _) ⟨hfresh, hstale⟩]
      exact if_congr ⟨And.right, fun h => ⟨hnf, h⟩⟩ rfl rfl
    · rw [show (s.dev.runJob (.channelTick c)).channels[c] = _ from s.dev.ages_channel c]
      exact hage
    · exact List.ne_nil_of_mem (List.contains_iff_mem.mp hocc)
    · subst hz
      obtain ⟨hzone, hhold⟩ := Device.ages_staleSeen hu (z := z) (by
        rw [Channel.tickValidities_eq hnone, if_neg (fun h => absurd h.2 (Nat.not_le.mpr hlt)), if_pos ⟨hfresh, hstale⟩])
      refine ⟨fun hm => ⟨?_, hhold (.inl hm)⟩, fun hm => ⟨?_, hhold (.inr hm)⟩, fun h1 h2 => hzone.trans (Zone.sees_stale_other h1 h2)⟩
      · rw [show (s.dev.runJob _).zones[z] = _ from hzone, Zone.sees_stale (.inl hm), hm]
        rfl
      · rw [show (s.dev.runJob _).zones[z] = _ from hzone, Zone.sees_stale (.inr hm), hm]
        rfl
  · obtain ⟨hnone, hnf⟩ := hne hval
    obtain ⟨hage, -, -, -, hvalid⟩ := hvalues hnone
    have hocc : s.dev.agesTo c .failed = true := (s.dev.agesTo_failed c).mpr ⟨hval, hfail⟩
    refine ⟨{ s with dev := s.dev.runJob (.channelTick c) }, by rw [exec_channelAgeFailed, hocc, Device.occur_true hr], ?_, ?_,
      fun i hi => s.dev.ages_others hi, htracker (List.ne_nil_of_mem (List.contains_iff_mem.mp hocc)), fun hu => hfailure hu ⟨hnone, hnf⟩ hfail⟩
    · rw [show (s.dev.runJob (.channelTick c)).channels[c] = _ from s.dev.ages_channel c, hvalid]
      exact if_pos ⟨hnf, hfail⟩
    · rw [show (s.dev.runJob (.channelTick c)).channels[c] = _ from s.dev.ages_channel c]
      exact hage
  · have hexec : exec .cycleTimeoutExpiry s = .next { s with dev := s.dev.runJob .timeoutTick } := by
      rw [exec_cycleTimeoutExpiry, beq_iff_eq.mpr htime, Device.occur_true hr]
    have hlink := Device.timeout_link htime
    have hchannels := s.dev.timeout_channels
    generalize s.dev.runJob .timeoutTick = t at hexec hlink hchannels
    obtain ⟨hcount, hlost, htold, hsilent⟩ := hlink
    exact ⟨{ s with dev := t }, hexec, hcount, hchannels, hlost, fun hl => (htold hl).anySource, hsilent⟩
  · have hocc : s.dev.agesTo c .stale = false := Bool.eq_false_iff.mpr fun h' => by
      obtain ⟨h1, h2⟩ := (s.dev.agesTo_stale c).mp h'
      exact h.elim (fun hn => hn h1) fun hlt => absurd h2 (Nat.not_le.mpr hlt)
    rw [exec_channelAgeStale, hocc, Device.occur_false]
  · have hocc : s.dev.agesTo c .failed = false := Bool.eq_false_iff.mpr fun h' => by
      obtain ⟨h1, h2⟩ := (s.dev.agesTo_failed c).mp h'
      exact h.elim (fun hn => h1.elim hn.1 hn.2) fun hlt => absurd h2 (Nat.not_le.mpr hlt)
    rw [exec_channelAgeFailed, hocc, Device.occur_false]
  · rw [exec_cycleTimeoutExpiry, beq_eq_false_iff_ne.mpr h, Device.occur_false]

end Sys2Proof.Machine

/-! The capture commands (O48, first part). -/

namespace Sys2Proof.Machine

/-- R167: record indices from bytes. -/
theorem mapM_recordIndex_iff {n : Nat} (bs : List Byte) (is : List (Fin n)) :
    bs.mapM (recordIndex n) = some is ↔ is.map Fin.val = bs.map BitVec.toNat := by
  induction bs generalizing is with
  | nil =>
    rw [List.mapM_nil]
    cases is <;> simp
  | cons b bs ih =>
    rw [List.mapM_cons]
    by_cases hb : b.toNat < n
    · have hi : recordIndex n b = some ⟨b.toNat, hb⟩ := recordIndex_of_eq rfl
      cases is with
      | nil =>
        rw [hi]
        cases h : bs.mapM (recordIndex n) <;> simp
      | cons i is =>
        rw [hi]
        cases h : bs.mapM (recordIndex n) with
        | none =>
          have : ¬is.map Fin.val = bs.map BitVec.toNat := fun hc => by rw [(ih is).mpr hc] at h; cases h
          simp [this]
        | some js =>
          have hjs := (ih js).mp h
          simp only [Option.pure_def, Option.bind_eq_bind, Option.bind_some, Option.some.injEq, List.cons.injEq, List.map_cons]
          constructor
          · rintro ⟨rfl, rfl⟩
            exact ⟨rfl, hjs⟩
          · rintro ⟨h1, h2⟩
            refine ⟨Fin.ext h1.symm, ?_⟩
            have := (ih is).mpr h2
            rw [h] at this
            exact Option.some.inj this
    · rw [recordIndex_of_le (Nat.le_of_not_lt hb)]
      cases is with
      | nil => simp
      | cons i is =>
        simp only [Option.bind_eq_bind, Option.bind_none, reduceCtorEq, List.map_cons, List.cons.injEq, false_iff, not_and]
        intro h
        exact absurd (h ▸ i.isLt) hb

/-- R167: the bytes of the packed words, each low byte first. -/
theorem packedBytes_eq (packed : Vector Word 4) : packedBytes packed = [lowByte packed[0], highByte packed[0], lowByte packed[1], highByte packed[1],
    lowByte packed[2], highByte packed[2], lowByte packed[3], highByte packed[3]] := by
  have h : packed.toList = [packed[0], packed[1], packed[2], packed[3]] := by
    refine List.ext_getElem (by simp) fun i h1 h2 => ?_
    have hi : i < 4 := by simpa using h1
    interval_cases i <;> simp
  rw [packedBytes, h]
  rfl

/-- R167: the channel list that the words give. -/
theorem captureList_iff (count : Word) (packed : Vector Word 4) (cs : List (Fin 32)) : captureList count packed = some cs ↔
    1 ≤ count.toNat ∧ count.toNat ≤ 8 ∧ cs.Nodup ∧ cs.map Fin.val = ((packedBytes packed).take count.toNat).map BitVec.toNat := by
  unfold captureList
  by_cases hc : count.toNat < 1 ∨ 8 < count.toNat
  · rw [if_pos hc]
    simp only [reduceCtorEq, false_iff]
    rintro ⟨h1, h2, -⟩
    omega
  · rw [if_neg hc, ← mapM_recordIndex_iff]
    have h1 : 1 ≤ count.toNat := by omega
    have h2 : count.toNat ≤ 8 := by omega
    cases hm : ((packedBytes packed).take count.toNat).mapM (recordIndex 32) with
    | none => simp
    | some is =>
      by_cases hn : is.Nodup
      · simp only [if_pos hn, Option.some.injEq, h1, h2, true_and]
        exact ⟨fun h => ⟨h ▸ hn, h⟩, And.right⟩
      · simp only [if_neg hn, reduceCtorEq, false_iff, Option.some.injEq]
        rintro ⟨-, -, hcs, rfl⟩
        exact hn hcs

theorem CaptureMode.ofCode_eq (w : Word) : (w.toNat ≤ 2 → ∃ m, CaptureMode.ofCode w = some m ∧ w.toNat = m.code)
    ∧ (2 < w.toNat → CaptureMode.ofCode w = none) := by
  unfold CaptureMode.ofCode
  refine ⟨fun h => ?_, fun h => ?_⟩
  · have hw : w.toNat = 0 ∨ w.toNat = 1 ∨ w.toNat = 2 := by omega
    rcases hw with hw | hw | hw <;> rw [hw]
    · exact ⟨.pre, rfl, rfl⟩
    · exact ⟨.post, rfl, rfl⟩
    · exact ⟨.window, rfl, rfl⟩
  · split <;> first | rfl | omega

end Sys2Proof.Machine

/-! The rules of the capture commands (O48, first part). -/

namespace Sys2Proof.Machine

theorem CaptureState.active_iff (q : CaptureState) : q.active = true ↔ q = .running ∨ q = .waiting ∨ q = .postfill := by cases q <;> decide

theorem CaptureState.acceptsTrigger_iff (q : CaptureState) : q.acceptsTrigger = true ↔ q = .running ∨ q = .waiting := by cases q <;> decide

/-- R168: a post-count out of range. -/
theorem Device.replyWriteCapturePostCount_beyond (d : Device) {p : Word} (h : p = 0 ∨ 512 ≤ p.toNat) :
    d.replyWriteCapturePostCount p = .badParam := by
  refine if_neg fun hr => ?_
  obtain ⟨h1, h2⟩ := (inRange_unsigned 1 511 p).mp hr
  rcases h with rfl | h
  · simp at h1
  · omega

/-- R168: a post-count in range goes to the latch in POSTFILL. -/
theorem Device.replyWriteCapturePostCount_postfill {d : Device} {p : Word} (h1 : 1 ≤ p.toNat) (h2 : p.toNat ≤ 511)
    (hq : d.capture.state = .postfill) : d.replyWriteCapturePostCount p
      = .store { d with capture := { d.capture with latchP := p.toNat, latchPending := true } } [natWord d.capture.postCount, 1] := by
  unfold Device.replyWriteCapturePostCount
  have hr : inRange 1 511 (unsigned p) = true := (inRange_unsigned 1 511 p).mpr ⟨h1, h2⟩
  rw [if_pos hr, if_pos hq]
  rfl

/-- R168: a post-count in range is taken at once in every other state. -/
theorem Device.replyWriteCapturePostCount_at_once {d : Device} {p : Word} (h1 : 1 ≤ p.toNat) (h2 : p.toNat ≤ 511)
    (hq : d.capture.state ≠ .postfill) : d.replyWriteCapturePostCount p
      = .store { d with capture := { d.capture with postCount := p.toNat, latchPending := false } } [p, 0] := by
  unfold Device.replyWriteCapturePostCount
  have hr : inRange 1 511 (unsigned p) = true := (inRange_unsigned 1 511 p).mpr ⟨h1, h2⟩
  rw [if_pos hr, if_neg hq]
  have hp : natWord p.toNat = p := by simp [natWord]
  show Reply.store _ [natWord p.toNat, 0] = _
  rw [hp]

/-- R167: record 0 with words in range answers by the state of the buffer. -/
theorem Device.replyWriteCaptureConfig_fits (d : Device) {mode decimation count : Word} {packed : Vector Word 4} {cs : List (Fin 32)} {m : CaptureMode}
    (hm : CaptureMode.ofCode mode = some m) (h1 : 1 ≤ decimation.toNat) (h2 : decimation.toNat ≤ 256)
    (hcs : captureList count packed = some cs) : d.replyWriteCaptureConfig 0 mode decimation count packed
      = if d.capture.state.active then .refused [natWord d.capture.state.code]
        else if d.capture.state = .frozen ∧ d.capture.records ≠ [] ∧ cs ≠ d.capture.channels then .refused [4, natWord d.capture.retained]
        else .store { d with capture := { d.capture with mode := m, decimation := decimation.toNat, channels := cs } }
          [natWord d.capture.state.code] := by
  have hd := (inRange_unsigned 1 256 decimation).mpr ⟨h1, h2⟩
  show (match CaptureMode.ofCode mode, captureList count packed with | some _, some _ => _ | _, _ => _) = _
  rw [hm, hcs]
  exact if_pos hd

/-- R167: a record other than 0 and 1, or a word of record 0 out of range. -/
theorem Device.replyWriteCaptureConfig_misfit (d : Device) {record : Byte} {mode decimation count : Word} {packed : Vector Word 4} (h1 : record ≠ 1)
    (h : record = 0 → 1 ≤ decimation.toNat → decimation.toNat ≤ 256 → mode.toNat ≤ 2 → captureList count packed = none) :
    d.replyWriteCaptureConfig record mode decimation count packed = .badParam := by
  by_cases h0 : record = 0
  · subst h0
    show (match CaptureMode.ofCode mode, captureList count packed with | some _, some _ => _ | _, _ => _) = _
    by_cases hm : mode.toNat ≤ 2
    · obtain ⟨m, hm', -⟩ := (CaptureMode.ofCode_eq mode).1 hm
      rw [hm']
      cases hcs : captureList count packed with
      | none => rfl
      | some cs =>
        refine if_neg fun hd => ?_
        obtain ⟨hd1, hd2⟩ := (inRange_unsigned 1 256 decimation).mp hd
        rw [h rfl hd1 hd2 hm] at hcs
        cases hcs
    · rw [(CaptureMode.ofCode_eq mode).2 (by omega)]
  · unfold Device.replyWriteCaptureConfig
    split
    · next hr => exact absurd (BitVec.eq_of_toNat_eq hr) h1
    · next hr => exact absurd (BitVec.eq_of_toNat_eq hr) h0
    · rfl

theorem CaptureMode.code_injective {m m' : CaptureMode} (h : m.code = m'.code) : m = m' := by cases m <;> cases m' <;> first | rfl | cases h

/-- R172: what an accepted trigger leaves. -/
theorem Device.captureTrigger_accepted {d : Device} (h : d.capture.state = .running ∨ d.capture.state = .waiting) (source : Nat) :
    d.captureTrigger source = if d.capture.mode = .pre
      then (({ d with capture := d.capture.loadLatch.triggered } : Device).raise .captureTriggered source
        (natWord d.capture.records.length)).raise .captureFrozen 1 (natWord d.capture.records.length)
      else ({ d with capture := d.capture.loadLatch.triggered } : Device).raise .captureTriggered source
        (natWord d.capture.records.length) := by
  have hc : d.capture.loadLatch.triggered.mode = d.capture.mode ∧ d.capture.loadLatch.triggered.records = d.capture.records := by
    unfold Capture.loadLatch Capture.triggered
    split <;> split <;> exact ⟨rfl, rfl⟩
  unfold Device.captureTrigger
  rw [if_pos ((CaptureState.acceptsTrigger_iff _).mpr h)]
  simp only [Capture.retained, hc.1, hc.2]

/-- R172: the buffer after an accepted trigger, by mode. -/
theorem Capture.triggered_cases (q : Capture) :
    (q.mode = .pre → q.loadLatch.triggered = { q.loadLatch with state := .frozen })
    ∧ (q.mode = .post → q.loadLatch.triggered = { q.loadLatch with state := .postfill, counter := 0, markOwed := true })
    ∧ (q.mode = .window → q.loadLatch.triggered
        = { q.loadLatch with state := .postfill, countdown := q.loadLatch.postCount, counter := 0, markOwed := true }) := by
  have hm : q.loadLatch.mode = q.mode := by unfold Capture.loadLatch; split <;> rfl
  rw [← hm]
  generalize q.loadLatch = c
  unfold Capture.triggered
  refine ⟨fun h => ?_, fun h => ?_, fun h => ?_⟩ <;> split <;> first | rfl | (rename_i hc; rw [h] at hc; cases hc)

theorem Device.captureTrigger_ignored {d : Device} (h1 : d.capture.state ≠ .running) (h2 : d.capture.state ≠ .waiting) (source : Nat) :
    d.captureTrigger source = d :=
  if_neg fun h => ((CaptureState.acceptsTrigger_iff _).mp h).elim h1 h2

end Sys2Proof.Machine

/-! A change of MARK that moves one term (O48, second part). -/

namespace Sys2Proof.Machine

/-! ## The settlement, where the levels that the terms read stand, and where one of them moves one term -/

theorem settleTerm_stands {d0 : Device} {p : Device × TermSet} {j : Fin 8} (h : ∀ c ∈ p.1.terms[j].inputs, d0.level c = p.1.level c) :
    settleTerm d0 p j = p := by
  have hany : (p.1.terms[j].inputs.any fun c => d0.level c != p.1.level c) = false := List.any_eq_false.mpr fun c hc => by
    rw [h c hc]
    simp
  unfold settleTerm
  dsimp only
  rw [if_neg (by rw [hany]; simp)]

theorem List.foldl_fixed_of_forall {α β : Type} {f : β → α → β} {b : β} {xs : List α} (h : ∀ a ∈ xs, f b a = b) : xs.foldl f b = b := by
  induction xs with
  | nil => rfl
  | cons x xs ih =>
    rw [List.foldl_cons, h x List.mem_cons_self]
    exact ih fun a ha => h a (List.mem_cons_of_mem _ ha)

/-- A fold in which only `a` moves the state. -/
theorem List.foldl_one_moves {α β : Type} {f : β → α → β} {b : β} {xs : List α} {a : α} (hn : xs.Nodup) (ha : a ∈ xs)
    (hb : ∀ x ≠ a, f b x = b) (hf : ∀ x ≠ a, f (f b a) x = f b a) : xs.foldl f b = f b a := by
  obtain ⟨ys, zs, rfl⟩ := List.append_of_mem ha
  rw [List.nodup_append] at hn
  obtain ⟨-, hz, hd⟩ := hn
  rw [List.foldl_append, List.foldl_cons, List.foldl_fixed_of_forall fun x hx => hb x fun h => hd x hx a List.mem_cons_self h,
    List.foldl_fixed_of_forall fun x hx => hf x fun h => (List.nodup_cons.mp hz).1 (h ▸ hx)]

/-- R123: terms whose inputs stand do not settle anew. -/
theorem settle_stands {d0 d : Device} (h : ∀ i : Fin 8, ∀ c ∈ d.terms[i].inputs, d0.level c = d.level c) (m : TermSet) : settle d0 d m = (d, m) :=
  List.foldl_fixed_of_forall fun i _ => settleTerm_stands (h i)

theorem settled_stands {d : Device} {e : Effect} (h : ∀ i : Fin 8, ∀ c ∈ d.terms[i].inputs, d.level c = e.dev.level c) (ht : e.dev.terms = d.terms)
    (m : TermSet) : settled d e m = e.dev.dropPermit ∧ (settle d e.dev m).2 = m := by
  have hs := settle_stands (d0 := d) (d := e.dev) (by rwa [ht]) m
  refine ⟨?_, by rw [hs]⟩
  unfold settled settleAndDrop
  rw [hs]
  dsimp only
  rw [termEvents_of_same ht]
  simp

/-- R123: the terms after an effect are those of its settlement. -/
theorem settled_terms (d : Device) (e : Effect) (m : TermSet) : (settled d e m).terms = (settle d e.dev m).1.terms := by
  have hc := settleAndDrop_cases d e.dev m
  unfold settled
  generalize (settle d e.dev m).1 = d1 at hc
  rcases hc with ⟨h, -⟩ | ⟨-, o, h, -⟩ | ⟨hf, -, o, n, h, -⟩
  · rw [h]
  · rw [h]
  · obtain ⟨q, hq⟩ := Device.dropAmongTerms_frame d e.dev { d1 with choices := o } n hf
    rw [h, hq]

/-- R123: the change of one input moves the term that reads it, where every other term reads constants. -/
theorem settle_moves {d0 d : Device} {j : Fin 8} (hi : ∀ i : Fin 8, i ≠ j → ∀ c ∈ d.terms[i].inputs, c.isFixed = true)
    (hc : ∃ c ∈ d.terms[j].inputs, d0.level c ≠ d.level c) (hv : d.selected d.terms[j] ≠ d.terms[j].value) :
    (settle d0 d 0).1 = d.changeTerm j (d.selected d.terms[j]) := by
  have hmove : settleTerm d0 (d, 0) j = (d.changeTerm j (d.selected d.terms[j]), 0 ||| TermSet.one j) := by
    have hany : (d.terms[j].inputs.any fun c => d0.level c != d.level c) = true := List.any_eq_true.mpr (by simpa using hc)
    have hbit : (0 : TermSet).getLsbD j.val = false := BitVec.getLsbD_zero
    simp only [settleTerm, hany, hv, hbit, if_true, if_false, Bool.false_eq_true]
  have hothers := OnlyTerm.of_changeTerm d j (d.selected d.terms[j])
  have hfold : settle d0 d 0 = settleTerm d0 (d, 0) j := by
    refine List.foldl_one_moves (List.nodup_finRange 8) (List.mem_finRange j) (fun i hne => ?_) fun i hne => ?_
    · exact settleTerm_stands fun c h => Device.level_isFixed (hi i hne c h)
    · rw [hmove]
      refine settleTerm_stands fun c h => Device.level_isFixed ?_
      rw [hothers.others i hne] at h
      exact hi i hne c h
  rw [hfold, hmove]

/-- R129: what the rise of one term hands to the Capture Buffer. -/
theorem captureReactions_one {d0 d : Device} {j : Fin 8} (h : ∀ i : Fin 8, i ≠ j → d.terms[i] = d0.terms[i]) :
    captureReactions d0 d = if d.terms[j].binding = .captureTrigger ∧ d0.terms[j].value = false ∧ d.terms[j].value = true
      then [.captureTrigger [3 + j.val]] else [] := by
  have honly : ∀ i ∈ (List.finRange 8).filter fun i => d.boundTo .captureTrigger i && !d0.terms[i].value && d.terms[i].value, (i == j) = true :=
    fun i hi => by
      by_contra hne
      have hp := (List.mem_filter.mp hi).2
      rw [h i (by simpa using hne)] at hp
      cases hv : d0.terms[i].value <;> rw [hv] at hp <;> simp at hp
  have hrisen := finRange_filter_beq (fun i => d.boundTo .captureTrigger i && !d0.terms[i].value && d.terms[i].value) j
  rw [List.filter_eq_self.mpr honly] at hrisen
  unfold captureReactions
  dsimp only
  rw [hrisen]
  have hiff : (d.boundTo .captureTrigger j && !d0.terms[j].value && d.terms[j].value) = true ↔
      d.terms[j].binding = .captureTrigger ∧ d0.terms[j].value = false ∧ d.terms[j].value = true := by
    simp [Device.boundTo, and_assoc]
  by_cases hr : d.terms[j].binding = .captureTrigger ∧ d0.terms[j].value = false ∧ d.terms[j].value = true
  · rw [if_pos (hiff.mpr hr), if_pos hr]
    rfl
  · rw [if_neg (hiff.not.mpr hr), if_neg hr]
    rfl

end Sys2Proof.Machine

/-! Following a change of MARK to the Capture Buffer (O48, second part). -/

namespace Sys2Proof.Machine

/-! ## An accepted trigger -/

/-- R172: what an accepted trigger tells. -/
theorem Device.captureTrigger_tells {d d0 : Device} (h : d.capture.state = .running ∨ d.capture.state = .waiting) (source : Nat)
    (hl : d0.events.records.length ≤ d.events.records.length) :
    (d.captureTrigger source).capture = d.capture.loadLatch.triggered
      ∧ d0.events.Told (d.captureTrigger source).events .captureTriggered source d.port.cycleCount (natWord d.capture.records.length)
      ∧ (d.capture.mode = .pre →
        d0.events.Told (d.captureTrigger source).events .captureFrozen 1 d.port.cycleCount (natWord d.capture.records.length)) := by
  have htold := EventQueue.told_offer d0.events d.events .captureTriggered source d.port.cycleCount (natWord d.capture.records.length) hl
  have hlonger : d0.events.records.length ≤ (d.events.offer ⟨.captureTriggered, BitVec.ofNat 8 source, d.port.cycleCount,
      natWord d.capture.records.length⟩).records.length := hl.trans (EventQueue.Grows.one (p := fun _ => True) _ trivial).length_le
  rw [Device.captureTrigger_accepted h]
  split
  · exact ⟨rfl, htold.offer _, fun _ => EventQueue.told_offer _ _ _ _ _ _ hlonger⟩
  · next hm => exact ⟨rfl, htold, fun hp => absurd hp hm⟩

/-! ## What the terms read -/

/-- The terms read MARK and constants. -/
def Device.ReadsMark (d : Device) : Prop := ∀ i : Fin 8, ∀ c ∈ d.terms[i].inputs, c.isFixed = true ∨ c = .markLevel

theorem Device.ReadsMark.level {d d' : Device} (h : d.ReadsMark) (hm : d'.lines.mark = d.lines.mark) (i : Fin 8) :
    ∀ c ∈ d.terms[i].inputs, d.level c = d'.level c := fun c hc => by
  rcases h i c hc with hf | rfl
  · exact Device.level_isFixed hf
  · simp only [Device.level, hm]

theorem act_mark (ws : List Job) (d : Device) {j : Job} (hj : ∀ l, j ≠ .markLevel l) : (act ws d j).dev.lines.mark = d.lines.mark := by
  cases hm : j.movesLines with
  | false => rw [(act_frame ws d j).spares.lines hm]
  | true =>
    cases j
    case markLevel l => exact absurd rfl (hj l)
    case wbrkLevel => rfl
    all_goals cases hm

/-! ## The events of a change of MARK -/

/-- The events that follow from a change of MARK that moves no term bound HARD_BREAK. -/
inductive OfMarkChange (level : Bool) : Job → Nat → Prop
  | mark (n : Nat) : OfMarkChange level (.markLevel level) (n + 1)
  | clock (k : Fin 6) (source : ClockSource) (n : Nat) : OfMarkChange level (.timerClock k source) n
  | edge (k : Fin 6) (c : Cond) (b : Bool) (n : Nat) : OfMarkChange level (.timerEdge k c b) n
  | demand (z : Fin 12) (b : Bool) (n : Nat) : OfMarkChange level (.zoneDemand z b) n
  | softRise (i n : Nat) : OfMarkChange level (.softRise i) n
  | softFall (n : Nat) : OfMarkChange level .softFall n
  | trigger (sources : List Nat) (n : Nat) : OfMarkChange level (.captureTrigger sources) n
  | permit (source reason n : Nat) : OfMarkChange level (.permitDropped source reason) n

theorem OfMarkChange.plain {level : Bool} {j : Job} {n : Nat} (h : OfMarkChange level j n) : (∀ i, j ≠ .deferredTerm i) ∧ (∀ w, j ≠ .breakWord w)
    ∧ (∀ l, j ≠ .wbrkLevel l) ∧ (∀ w, j ≠ .controlWord w) ∧ (∀ b, j ≠ .captureRecord b) ∧ j.declares = false ∧ j.Modest ∧ j ≠ .command := by
  cases h <;> simp [Job.declares, Job.Modest]

/-- The events that are followed: the change of MARK and the triggers. -/
def Job.markOrTrigger : Job → Bool
  | .markLevel _ | .captureTrigger _ => true
  | _ => false

theorem timerReactions_filter {tok : Job → Bool} (h : ∀ k c b, tok (.timerEdge k c b) = false) (d0 d : Device) (b : Bool) :
    (timerReactions d0 d b).filter tok = [] := by
  refine List.filter_eq_nil_iff.mpr fun x hx => ?_
  obtain ⟨k, -, hx⟩ := List.mem_flatMap.mp hx
  dsimp only at hx
  split at hx
  · rw [List.mem_singleton.mp hx, h]; simp
  · cases hx

theorem demandReactions_filter {tok : Job → Bool} (h : ∀ z b, tok (.zoneDemand z b) = false) (d0 d : Device) :
    (demandReactions d0 d).filter tok = [] := by
  refine List.filter_eq_nil_iff.mpr fun x hx => ?_
  obtain ⟨z, -, hx⟩ := List.mem_flatMap.mp hx
  split at hx
  · rw [List.mem_singleton.mp hx, h]; simp
  · cases hx

theorem hardReactions_filter {tok : Job → Bool} (h : ∀ c n, tok (.hardRise c n) = false) (d0 d : Device) (b : Bool) :
    (hardReactions d0 d b).filter tok = [] := by
  refine List.filter_eq_nil_iff.mpr fun x hx => ?_
  unfold hardReactions at hx
  dsimp only at hx
  split at hx
  · rw [List.mem_singleton.mp hx, h]; simp
  · cases hx

theorem softReactions_filter {tok : Job → Bool} (hr : ∀ n, tok (.softRise n) = false) (hf : tok .softFall = false) (d0 d : Device) :
    (softReactions d0 d).filter tok = [] := by
  unfold softReactions
  rw [List.filter_append]
  split <;> split <;> simp [hr, hf]

/-- What an event hands on, where only its own jobs and triggers are looked at. -/
theorem handedOn_toCapture {tok : Job → Bool} (htok : ∀ x : Job, x.fromOutside = false → x.movesCapture = false → tok x = false) (d : Device) (e : Effect)
    (m : TermSet) : (handedOn d e m).filter tok = e.next.filter tok ++ (captureReactions d (settled d e m)).filter tok := by
  have hleft : (leftToRaise d e m).filter tok = [] := List.filter_eq_nil_iff.mpr fun x hx => by
    obtain ⟨s, r, -, rfl⟩ := mem_leftToRaise hx
    rw [htok _ rfl rfl]
    simp
  unfold handedOn directReactions termReactions
  simp only [List.filter_append]
  rw [timerReactions_filter (fun _ _ _ => htok _ rfl rfl), timerReactions_filter (fun _ _ _ => htok _ rfl rfl),
    demandReactions_filter (fun _ _ => htok _ rfl rfl), hardReactions_filter (fun _ _ => htok _ rfl rfl),
    hardReactions_filter (fun _ _ => htok _ rfl rfl), softReactions_filter (fun _ => htok _ rfl rfl) (htok _ rfl rfl), hleft]
  simp only [List.nil_append, List.append_nil]

theorem mem_captureReactions_trigger {d0 d : Device} {x : Job} (h : x ∈ captureReactions d0 d) : ∃ ns, x = .captureTrigger ns := by
  unfold captureReactions at h
  dsimp only at h
  split at h
  · cases h
  · exact ⟨_, List.mem_singleton.mp h⟩

/-- What an event without jobs of its own hands on to the Capture Buffer. -/
theorem handedOn_trigger {d : Device} {e : Effect} (h : e.next = []) (m : TermSet) :
    (handedOn d e m).filter Job.markOrTrigger = captureReactions d (settled d e m) := by
  have htok : ∀ x : Job, x.fromOutside = false → x.movesCapture = false → x.markOrTrigger = false := fun x hx hc => by
    cases x
    case markLevel => cases hx
    case captureTrigger => cases hc
    all_goals rfl
  rw [handedOn_toCapture htok, h, List.filter_nil, List.nil_append]
  refine List.filter_eq_self.mpr fun x hx => ?_
  obtain ⟨ns, rfl⟩ := mem_captureReactions_trigger hx
  rfl

/-- R129: where no term moves, none gives a trigger. -/
theorem captureReactions_of_same {d0 d : Device} (h : d.terms = d0.terms) : captureReactions d0 d = [] := by
  have hnone : ((List.finRange 8).filter fun j => d.boundTo .captureTrigger j && !d0.terms[j].value && d.terms[j].value) = [] :=
    List.filter_eq_nil_iff.mpr fun j _ => by
      rw [h]
      cases d0.terms[j].value <;> simp
  unfold captureReactions
  dsimp only
  rw [hnone]
  rfl

end Sys2Proof.Machine

/-! A term that MARK moves, and the trigger that its rise gives (O48, second part). -/

namespace Sys2Proof.Machine

/-- Only term `j` has moved, to `v`. -/
structure TermMoved (j : Fin 8) (v : Bool) (d d' : Device) : Prop where
  others : ∀ i : Fin 8, i ≠ j → d'.terms[i] = d.terms[i]
  moved : d'.terms[j] = { d.terms[j] with value := v }

/-- R129: the move of term `j` to `v` is a rise that gives a trigger. -/
def Device.termTriggers (d : Device) (j : Fin 8) (v : Bool) : Prop := d.terms[j].binding = .captureTrigger ∧ v = true

/-- The Capture Buffer has taken the trigger of term `j`, where there was one and it took triggers. -/
structure TriggerTaken (j : Fin 8) (v : Bool) (d0 d : Device) : Prop where
  taken : d0.termTriggers j v → d0.capture.state = .running ∨ d0.capture.state = .waiting →
    d.capture = d0.capture.loadLatch.triggered
      ∧ d0.events.Told d.events .captureTriggered (3 + j.val) d0.port.cycleCount (natWord d0.capture.records.length)
      ∧ (d0.capture.mode = .pre → d0.events.Told d.events .captureFrozen 1 d0.port.cycleCount (natWord d0.capture.records.length))
  kept : ¬(d0.termTriggers j v ∧ (d0.capture.state = .running ∨ d0.capture.state = .waiting)) → d.capture = d0.capture

/-- A change of MARK that moves term `j` to `v`, followed: MARK still waits and in no cascade has a term changed; or the term has moved, and its
trigger waits or has been taken. -/
structure MarkFollows (level : Bool) (j : Fin 8) (v : Bool) (d0 : Device) (b : Bool) (d : Device) (ts : List Job) : Prop where
  cycleCount : d.port.cycleCount = d0.port.cycleCount
  told : d0.events.Grows (fun _ => True) d.events
  phase : (b = true ∧ ts = [.markLevel level] ∧ d.terms = d0.terms ∧ d.lines = d0.lines ∧ d.capture = d0.capture)
    ∨ (TermMoved j v d0 d ∧ ((ts = [.captureTrigger [3 + j.val]] ∧ d0.termTriggers j v ∧ d.capture = d0.capture)
        ∨ (ts = [] ∧ TriggerTaken j v d0 d)))

theorem TermMoved.readsMark {j : Fin 8} {v : Bool} {d d' : Device} (h : TermMoved j v d d') (hr : d.ReadsMark) : d'.ReadsMark := fun i => by
  by_cases hi : i = j
  · rw [hi, h.moved]
    exact hr j
  · rw [h.others i hi]
    exact hr i

theorem MarkFollows.readsMark {level : Bool} {j : Fin 8} {v : Bool} {d0 d : Device} {b : Bool} {ts : List Job}
    (h : MarkFollows level j v d0 b d ts) (hr : d0.ReadsMark) : d.ReadsMark := by
  rcases h.phase with ⟨-, -, ht, -⟩ | ⟨hm, -⟩
  · unfold Device.ReadsMark
    rw [ht]
    exact hr
  · exact hm.readsMark hr

/-- Where the terms read MARK and constants, an event other than a change of MARK leaves them. -/
theorem Device.ReadsMark.settled_terms {d : Device} (h : d.ReadsMark) {ws : List Job} {j : Job} (hd : ∀ i, j ≠ .deferredTerm i)
    (hm : ∀ l, j ≠ .markLevel l) (m : TermSet) :
    (settled d (act ws d j) m).terms = d.terms ∧ (settle d (act ws d j).dev m).2 = m := by
  obtain ⟨hs, h2⟩ := settled_stands (fun i c hc => h.level (act_mark ws d hm) i c hc) (act_network hd) m
  refine ⟨?_, h2⟩
  rw [hs]
  obtain ⟨p, hp⟩ := (act ws d j).dev.dropPermit_eq
  rw [hp]
  exact act_network hd

/-- The change of MARK moves the term, and hands its rise to the Capture Buffer. -/
theorem markLevel_moves {level : Bool} {j : Fin 8} {v : Bool} {d : Device} (h : d.MarkMovesTerm level j v) (ws : List Job) :
    let t := settled d (act ws d (.markLevel level)) 0
    TermMoved j v d t ∧ (handedOn d (act ws d (.markLevel level)) 0).filter Job.markOrTrigger
      = if d.terms[j].binding = .captureTrigger ∧ v = true then [.captureTrigger [3 + j.val]] else [] := by
  intro t
  obtain ⟨-, hmark, hin, -, hothers, hval, hsel⟩ := h
  have hmoves : (settle d (act ws d (.markLevel level)).dev 0).1 = (act ws d (.markLevel level)).dev.changeTerm j v := by
    have hv : (act ws d (.markLevel level)).dev.selected (act ws d (.markLevel level)).dev.terms[j] = v := hsel
    rw [← hv]
    refine settle_moves hothers ⟨.markLevel, hin, ?_⟩ ?_
    · show (d.lines.mark == some true) ≠ (some level == some true)
      rw [hmark]
      cases level <;> decide
    · rw [hv]
      show v ≠ d.terms[j].value
      rw [hval]
      cases v <;> decide
  have hterms : t.terms = ((act ws d (.markLevel level)).dev.changeTerm j v).terms := (settled_terms _ _ _).trans (congrArg Device.terms hmoves)
  have hmoved : TermMoved j v d t := by
    refine ⟨fun i hi => ?_, ?_⟩
    · rw [hterms]
      exact (OnlyTerm.of_changeTerm (act ws d (.markLevel level)).dev j v).others i hi
    · rw [hterms]
      exact Device.changeTerm_read (act ws d (.markLevel level)).dev j v
  refine ⟨hmoved, ?_⟩
  rw [handedOn_trigger rfl, captureReactions_one hmoved.others, hmoved.moved, hval]
  cases v <;> simp

end Sys2Proof.Machine

/-! The second part of O48: the change of MARK, event by event. -/

namespace Sys2Proof.Machine

theorem Device.MarkMovesTerm.readsMark {level : Bool} {j : Fin 8} {v : Bool} {d : Device} (h : d.MarkMovesTerm level j v) : d.ReadsMark := by
  obtain ⟨-, -, -, hj, hothers, -⟩ := h
  intro i c hc
  by_cases hi : i = j
  · exact hj c (hi ▸ hc)
  · exact .inl (hothers i hi c hc)

theorem Device.MarkMovesTerm.congr {level : Bool} {j : Fin 8} {v : Bool} {d d' : Device} (h : d.MarkMovesTerm level j v)
    (ht : d'.terms = d.terms) (hl : d'.lines = d.lines) : d'.MarkMovesTerm level j v := by
  have hr := h.readsMark
  obtain ⟨hrstn, hmark, hin, hj, hothers, hval, hsel⟩ := h
  unfold Device.MarkMovesTerm
  rw [ht, hl]
  refine ⟨hrstn, hmark, hin, hj, hothers, hval, ?_⟩
  rw [← hsel]
  exact Device.selected_congr fun c hc => ((Device.ReadsMark.level (d := { d with lines := { d.lines with mark := some level } })
    (d' := { d' with lines := { d.lines with mark := some level }, terms := d.terms }) hr rfl j) c hc).symm

/-- R129: whether a term of a binding is true is not moved by a term of another binding. -/
theorem TermMoved.anyTerm {j : Fin 8} {v : Bool} {d d' : Device} (h : TermMoved j v d d') {b : Binding} (hb : d.terms[j].binding ≠ b) :
    d'.anyTerm b = d.anyTerm b := by
  have hp : (fun i => d'.boundTo b i && d'.terms[i].value == true) = fun i => d.boundTo b i && d.terms[i].value == true := by
    funext i
    unfold Device.boundTo
    by_cases hi : i = j
    · subst hi
      rw [h.moved]
      have : (d.terms[i].binding == b) = false := by simpa using hb
      simp only [this, Bool.false_and]
    · rw [h.others i hi]
  unfold Device.anyTerm Device.lowestTerm
  rw [hp]

section
variable {level : Bool} {j : Fin 8} {v : Bool} {d0 : Device} (h0 : d0.MarkMovesTerm level j v) (hbind : d0.terms[j].binding ≠ .hardBreak)

include h0 hbind in
/-- What follows from a change of MARK that moves no term bound HARD_BREAK. -/
theorem MarkFollows.handsOn {b : Bool} {ws : List Job} {d : Device} {i : Job} {n : Nat} {m : TermSet} (hi : OfMarkChange level i (n + 1))
    (hmask : b = true → m = (act ws d i).mask d) (h : MarkFollows level j v d0 b d ((i :: ws).filter Job.markOrTrigger)) :
    ∀ x ∈ handedOn d (act ws d i) m, OfMarkChange level x n := by
  obtain ⟨hd, hw, hl, hc, -, hdec, -⟩ := hi.plain
  intro x hx
  have hhard : (settled d (act ws d i) m).hardLevel = d.hardLevel := by
    by_cases hm : ∀ l, i ≠ .markLevel l
    · exact hardLevel_still ((h.readsMark h0.readsMark).settled_terms hd hm m).1 hw hl
    · obtain ⟨l, rfl⟩ := not_forall_not.mp hm
      rcases h.phase with ⟨hb, -, ht, hlines, -⟩ | ⟨-, ⟨hts, -⟩ | ⟨hts, -⟩⟩
      · have hl' : l = level := by cases hi; rfl
        subst hl'
        have hzero : m = 0 := (hmask hb).trans (changedTerms_of_same rfl)
        rw [hzero]
        refine hardLevel_of_anyTerm ((markLevel_moves (h0.congr ht hlines) ws).1.anyTerm ?_) hw hl
        rw [ht]
        exact hbind
      · cases hts
      · cases hts
  rcases mem_handedOn hx with hx | hx
  · have hx := mem_act_next hx
    cases hx with
    | cascade k source => exact .clock _ _ n
    | tick | sample | loss | validity => cases hi
    | request w => exact absurd rfl (hc w)
    | zonesBreak _ hj | trigger _ hj => rw [hdec] at hj; cases hj
  · cases hx with
    | edge k => exact .edge _ _ _ n
    | demand z => exact .demand _ _ n
    | softRise => exact .softRise _ n
    | softFall => exact .softFall n
    | trigger => exact .trigger _ n
    | permit => exact .permit _ _ n
    | hard hr =>
      unfold hardRises at hr
      rw [hhard] at hr
      cases hb : d.hardLevel <;> simp [hb] at hr

/-- Other events at the buffer: it stands, and its trigger waits on. -/
theorem MarkFollows.other {b : Bool} {d d' : Device} {ts : List Job} {b' : Bool} (h : MarkFollows level j v d0 b d ts) (hb : b = true → b' = true)
    (hcount : d'.port.cycleCount = d.port.cycleCount) (hev : d.events.Grows (fun _ => True) d'.events) (ht : d'.terms = d.terms)
    (hl : d'.lines = d.lines) (hcap : d'.capture = d.capture) : MarkFollows level j v d0 b' d' ts := by
  refine ⟨hcount.trans h.cycleCount, h.told.trans hev, h.phase.imp (fun ⟨hbt, hts, hterms, hlines, hc⟩ =>
    ⟨hb hbt, hts, ht.trans hterms, hl.trans hlines, hcap.trans hc⟩) fun ⟨hmoved, hr⟩ => ⟨⟨fun i hi => ?_, ?_⟩, ?_⟩⟩
  · rw [ht]; exact hmoved.others i hi
  · rw [ht]; exact hmoved.moved
  · refine hr.imp (fun ⟨hts, hterm, hc⟩ => ⟨hts, hterm, hcap.trans hc⟩) fun ⟨hts, hk⟩ => ⟨hts, fun hterm ha => ?_, fun hn => hcap.trans (hk.kept hn)⟩
    obtain ⟨hc, h1, h2⟩ := hk.taken hterm ha
    exact ⟨hcap.trans hc, h1.grows hev, fun hp => (h2 hp).grows hev⟩

/-- The change of MARK itself. -/
theorem MarkFollows.mark {b : Bool} {ws : List Job} {d : Device} {m : TermSet} (h0 : d0.MarkMovesTerm level j v)
    (hmask : b = true → m = (act ws d (.markLevel level)).mask d) (b' : Bool)
    (h : MarkFollows level j v d0 b d ((.markLevel level :: ws).filter Job.markOrTrigger)) :
    MarkFollows level j v d0 b' (settled d (act ws d (.markLevel level)) m)
      (ws.filter Job.markOrTrigger ++ (handedOn d (act ws d (.markLevel level)) m).filter Job.markOrTrigger) := by
  rcases h.phase with ⟨hb, hts, ht, hlines, hcap⟩ | ⟨-, ⟨hts, -⟩ | ⟨hts, -⟩⟩
  · have hzero : m = 0 := (hmask hb).trans (changedTerms_of_same rfl)
    subst hzero
    obtain ⟨hmoved, hon⟩ := markLevel_moves (h0.congr ht hlines) ws
    have hspares := settled_act_spares ws d (.markLevel level) 0
    rw [(List.cons.inj hts).2, List.nil_append, hon, ht]
    refine ⟨hspares.cycleCount.trans h.cycleCount, h.told.trans ((event_grows ws d _ 0).mono fun _ _ => trivial), .inr ⟨?_, ?_⟩⟩
    · refine ⟨fun i hi => ?_, ?_⟩
      · rw [hmoved.others i hi, ht]
      · rw [hmoved.moved, ht]
    · have hc := (hspares.capture rfl).trans hcap
      split
      · next hr => exact .inl ⟨rfl, hr, hc⟩
      · next hr => exact .inr ⟨rfl, fun hn => absurd hn hr, fun _ => hc⟩
  · cases hts
  · cases hts

/-- The trigger that the rise gives. -/
theorem MarkFollows.trigger {b b' : Bool} {ws : List Job} {d : Device} {m : TermSet} {sources : List Nat} (h0 : d0.MarkMovesTerm level j v)
    (h : MarkFollows level j v d0 b d ((.captureTrigger sources :: ws).filter Job.markOrTrigger)) :
    MarkFollows level j v d0 b' (settled d (act ws d (.captureTrigger sources)) m) (ws.filter Job.markOrTrigger) := by
  have hgrows := (event_grows ws d (.captureTrigger sources) m).any
  have hterms := ((h.readsMark h0.readsMark).settled_terms (ws := ws) (j := .captureTrigger sources) (by simp) (by simp) m).1
  have hspares := settled_act_spares ws d (.captureTrigger sources) m
  rcases h.phase with ⟨-, hts, -⟩ | ⟨hmoved, ⟨hts, hterm, hcap⟩ | ⟨hts, -⟩⟩
  · cases hts
  · obtain ⟨hs, hws⟩ := List.cons.inj hts
    obtain rfl := Job.captureTrigger.inj hs
    have hact : (act ws d (.captureTrigger [3 + j.val])).dev = d.captureTrigger (3 + j.val) := rfl
    refine ⟨hspares.cycleCount.trans h.cycleCount, h.told.trans hgrows, .inr ⟨⟨fun i hi => ?_, ?_⟩, .inr ⟨hws, fun _ ha => ?_, fun hn => ?_⟩⟩⟩
    · rw [hterms]; exact hmoved.others i hi
    · rw [hterms]; exact hmoved.moved
    · rw [← hcap] at ha
      obtain ⟨hc, htrig, hfroz⟩ := Device.captureTrigger_tells (d0 := d0) ha (3 + j.val) h.told.length_le
      rw [h.cycleCount, hcap] at htrig hfroz
      rw [hcap] at hc
      exact ⟨by rw [settled_capture, hact, hc], told_settled (by simp) htrig m, fun hp => told_settled (by simp) (hfroz hp) m⟩
    · rw [settled_capture, hact]
      refine Eq.trans ?_ hcap
      rw [Device.captureTrigger_ignored]
      · exact fun hr => hn ⟨hterm, .inl (hcap ▸ hr)⟩
      · exact fun hr => hn ⟨hterm, .inr (hcap ▸ hr)⟩
  · cases hts

include h0 hbind in
theorem mark_tracks : FreshTracks (OfMarkChange level) Job.markOrTrigger id (MarkFollows level j v d0) where
  perm hp h := { h with
    phase := h.phase.imp (fun ⟨hb, hts, hr⟩ => ⟨hb, List.perm_singleton.mp (hts ▸ hp.symm), hr⟩) fun ⟨hmoved, hr⟩ =>
      ⟨hmoved, hr.imp (fun ⟨hts, hr⟩ => ⟨List.perm_singleton.mp (hts ▸ hp.symm), hr⟩) fun ⟨hts, hr⟩ => ⟨List.nil_perm.mp (hts ▸ hp), hr⟩⟩ }
  choices o h := h.other id rfl (.refl _) rfl rfl rfl
  act {b ws d i n m} hi _ _ _ hmask h := by
    obtain ⟨hd, -, -, hw, hrec, hdec, -⟩ := hi.plain
    have hgrows := (event_grows ws d i m).any
    have hspares := settled_act_spares ws d i m
    by_cases hm : ∀ l, i ≠ .markLevel l
    · obtain ⟨hterms, hset⟩ := (h.readsMark h0.readsMark).settled_terms hd hm (ws := ws) m
      have hnone : (if n = 0 then [] else (handedOn d (act ws d i) m).filter Job.markOrTrigger) = [] := by
        split
        · rfl
        · refine List.filter_eq_nil_iff.mpr fun x hx htok => ?_
          rcases mem_handedOn_still hterms hx with hx | ⟨s, r, rfl⟩ | ⟨k, -, c, b, rfl⟩ | ⟨-, -, c, n, rfl⟩
          · cases hx with
            | request w => exact hw w rfl
            | trigger _ hj => rw [hdec] at hj; cases hj
            | tick | sample | loss | validity | cascade | zonesBreak => cases htok
          · cases htok
          · cases htok
          · cases htok
      rw [hnone, List.append_nil]
      cases htok : i.markOrTrigger with
      | false =>
        rw [List.filter_cons_of_neg (by simpa using htok)] at h
        refine h.other (fun hb => ?_) hspares.cycleCount hgrows hterms (hspares.lines (by cases hi <;> first | rfl | cases htok))
          (hspares.capture (by cases hi <;> first | rfl | cases htok))
        rw [hb, hset, hmask hb]
        simp only [Effect.mask, changedTerms_of_same (act_network hd), ite_self, beq_self_eq_true, Bool.and_self]
      | true =>
        cases hi with
        | mark => exact absurd rfl (hm level)
        | trigger sources => exact h.trigger h0
        | _ => cases htok
    · obtain ⟨l, rfl⟩ := not_forall_not.mp hm
      cases hi with
      | mark n =>
        rw [if_neg (Nat.succ_ne_zero n)]
        exact h.mark h0 hmask _
  handsOn hi _ _ hmask h := h.handsOn h0 hbind hi hmask
  command h := absurd rfl h.plain.2.2.2.2.2.2.2

include h0 hbind in
/-- R122, R129: the Capture Buffer after a change of MARK that moves a term. -/
theorem Device.markChange_trigger : TriggerTaken j v d0 (d0.markChange level) := by
  have hj : ∀ x ∈ Job.markLevel level :: (if level then d0.clockRoots .mark else []), OfMarkChange level x Config.generations := by
    intro x hx
    rcases List.mem_cons.mp hx with rfl | hx
    · exact .mark _
    · split at hx
      · obtain ⟨k, -, rfl⟩ := List.mem_map.mp hx
        exact .clock k .mark _
      · cases hx
  have hroots : (Job.markLevel level :: (if level then d0.clockRoots .mark else [])).filter Job.markOrTrigger = [.markLevel level] := by
    rw [List.filter_cons_of_pos rfl]
    refine congrArg _ (List.filter_eq_nil_iff.mpr fun x hx => ?_)
    split at hx
    · obtain ⟨k, -, rfl⟩ := List.mem_map.mp hx
      simp [Job.markOrTrigger]
    · cases hx
  obtain ⟨b, h⟩ := (mark_tracks h0 hbind).runRoots d0 _ (fun x hx => (hj x hx).plain.2.2.2.2.2.2.1) hj
    ⟨rfl, .refl _, .inl ⟨rfl, hroots, rfl, rfl, rfl⟩⟩
  rcases h.phase with ⟨-, hts, -⟩ | ⟨-, ⟨hts, -⟩ | ⟨-, hk⟩⟩
  · cases hts
  · cases hts
  · exact hk

end

end Sys2Proof.Machine

/-! Several things followed at once, and the events of one moment up to the command that comes with them. -/

namespace Sys2Proof.Machine

/-! ## Following several things at once -/

/-- Every event but the command. -/
def Job.notCommand (j : Job) : Bool := j != .command

theorem filter_notCommand {tok : Job → Bool} (hc : tok .command = false) (ws : List Job) : (ws.filter Job.notCommand).filter tok = ws.filter tok := by
  rw [List.filter_filter]
  refine List.filter_congr fun x _ => ?_
  by_cases hx : x = .command
  · rw [hx, hc, Bool.false_and]
  · rw [show x.notCommand = true from bne_iff_ne.mpr hx, Bool.and_true]

theorem filter_ite_append {tok : Job → Bool} (n : Nat) (ws hs : List Job) :
    (ws ++ if n = 0 then [] else hs).filter tok = ws.filter tok ++ if n = 0 then [] else hs.filter tok := by
  rw [List.filter_append]
  split <;> rfl

theorem filter_notCommand_append {tok : Job → Bool} (hc : tok .command = false) (n : Nat) (ws hs : List Job) :
    (ws.filter Job.notCommand ++ if n = 0 then [] else hs.filter Job.notCommand).filter tok
      = ws.filter tok ++ if n = 0 then [] else hs.filter tok := by
  rw [filter_ite_append, filter_notCommand hc, filter_notCommand hc]

/-- What is followed on some events is followed on all but the command. -/
theorem Tracks.wide {J : Job → Nat → Prop} {tok : Job → Bool} {R : Device → List Job → Prop} (t : Tracks J tok id R) (hc : tok .command = false) :
    Tracks J Job.notCommand id fun d ts => R d (ts.filter tok) where
  perm hp h := t.perm (hp.filter _) h
  choices o h := t.choices o h
  act {ws d j n m} hj hcmd hws hturn h := by
    rw [filter_notCommand hc] at h
    rw [filter_notCommand_append hc]
    exact t.act hj hcmd hws hturn h
  handsOn hj hcmd hws h x hx := by
    rw [filter_notCommand hc] at h
    exact t.handsOn hj hcmd hws h x hx
  command _ _ _ h := by rwa [List.filter_cons_of_neg (by simp [Job.notCommand])] at h

/-- A family of things, followed at once. -/
theorem Tracks.all {ι : Type} {J : ι → Job → Nat → Prop} {tok : Job → Bool} {R : ι → Device → List Job → Prop}
    (t : ∀ i, Tracks (J i) tok id (R i)) (hc : tok .command = false) : Tracks (fun j n => ∀ i, J i j n) tok id fun d ts => ∀ i, R i d ts where
  perm hp h i := (t i).perm hp (h i)
  choices o h i := (t i).choices o (h i)
  act hj hcmd hws hturn h i := (t i).act (hj i) hcmd (fun w hw => (hws w hw).imp_right fun ⟨n, hn⟩ => ⟨n, hn i⟩) hturn (h i)
  handsOn hj hcmd hws h x hx i := (t i).handsOn (hj i) hcmd (fun w hw => (hws w hw).imp_right fun ⟨n, hn⟩ => ⟨n, hn i⟩) (h i) x hx
  command _ _ _ h := by rwa [List.filter_cons_of_neg (by rw [hc]; simp)] at h

/-- Two things, followed at once. -/
theorem Tracks.and {J K : Job → Nat → Prop} {tok : Job → Bool} {R S : Device → List Job → Prop} (t : Tracks J tok id R) (u : Tracks K tok id S)
    (hc : tok .command = false) : Tracks (fun j n => J j n ∧ K j n) tok id fun d ts => R d ts ∧ S d ts where
  perm hp h := ⟨t.perm hp h.1, u.perm hp h.2⟩
  choices o h := ⟨t.choices o h.1, u.choices o h.2⟩
  act hj hcmd hws hturn h := ⟨t.act hj.1 hcmd (fun w hw => (hws w hw).imp_right fun ⟨n, hn⟩ => ⟨n, hn.1⟩) hturn h.1,
    u.act hj.2 hcmd (fun w hw => (hws w hw).imp_right fun ⟨n, hn⟩ => ⟨n, hn.2⟩) hturn h.2⟩
  handsOn hj hcmd hws h x hx := ⟨t.handsOn hj.1 hcmd (fun w hw => (hws w hw).imp_right fun ⟨n, hn⟩ => ⟨n, hn.1⟩) h.1 x hx,
    u.handsOn hj.2 hcmd (fun w hw => (hws w hw).imp_right fun ⟨n, hn⟩ => ⟨n, hn.2⟩) h.2 x hx⟩
  command _ _ _ h := by rwa [List.filter_cons_of_neg (by rw [hc]; simp)] at h

/-- What every event keeps is followed without looking at any. -/
theorem KeptByEvent.tracks {S : Device → Prop} {J : Job → Prop} (k : KeptByEvent S J) (hch : ∀ d o, S d → S { d with choices := o }) :
    Tracks (fun j _ => J j) Job.notCommand id fun d _ => S d where
  perm _ h := h
  choices o h := hch _ o h
  act hj _ _ _ h := k.act _ _ _ _ h hj
  handsOn hj _ _ h x hx := k.handsOn _ _ _ _ h hj x hx
  command _ _ _ h := h

/-- What is followed only under a premise. -/
theorem Tracks.given {J : Job → Nat → Prop} {tok : Job → Bool} {R : Device → List Job → Prop} {p : Prop} (t : p → Tracks J tok id R)
    (hc : tok .command = false) : Tracks (fun j n => p → J j n) tok id fun d ts => p → R d ts where
  perm hp h hpr := (t hpr).perm hp (h hpr)
  choices o h hpr := (t hpr).choices o (h hpr)
  act hj hcmd hws hturn h hpr := (t hpr).act (hj hpr) hcmd (fun w hw => (hws w hw).imp_right fun ⟨n, hn⟩ => ⟨n, hn hpr⟩) hturn (h hpr)
  handsOn hj hcmd hws h x hx hpr := (t hpr).handsOn (hj hpr) hcmd (fun w hw => (hws w hw).imp_right fun ⟨n, hn⟩ => ⟨n, hn hpr⟩) (h hpr) x hx
  command _ _ _ h hpr := by
    have := h hpr
    rwa [List.filter_cons_of_neg (by rw [hc]; simp)] at this

/-! ## Up to the command -/

/-- The command still waits, with events that are followed. -/
structure BeforeCommand (J : Job → Nat → Prop) (tok : Job → Bool) (R : Device → List Job → Prop) (c : Cascades) : Prop where
  jobs : ∀ it ∈ c.items, it.job ≠ .command → J it.job it.life
  one : (c.items.map Item.job).count .command = 1
  follows : R c.dev ((c.items.map Item.job).filter tok)

/-- The moment at which the command is taken: what was followed so far, and what still waits. -/
structure AtCommand (J : Job → Nat → Prop) (tok : Job → Bool) (R : Device → List Job → Prop) (before : Device) (ws : List Job) : Prop where
  follows : R before (ws.filter tok)
  jobs : ∀ w ∈ ws, w ≠ .command ∧ ∃ n, J w n
  late : ∀ w ∈ ws, w.precedes before .command = false

/-- The command has been taken at `before`, with `ws` waiting on; since then nothing but what follows from `ws` has happened. -/
structure AfterCommand (command : Device → Device) (before : Device) (ws : List Job) (d : Device) (items : List Item) : Prop where
  none : ∀ it ∈ items, it.job ≠ .command
  alone : ws = [] → d = command before ∧ items = []
  kept : ∀ (S : Device → Prop) (P : Job → Prop), KeptByEvent S P → (∀ w ∈ ws, P w) → S (command before) →
    S d ∧ ∀ it ∈ items, P it.job

theorem pickNext_dev {S : Device → Prop} {c : Cascades} {it : Item} {rest : List Item} {d : Device} (hp : pickNext c = some (it, rest, d))
    (choose : ∀ o, S c.dev → S { c.dev with choices := o }) (h : S c.dev) : S d := by
  rcases (pickNext_cases hp).2.2 with rfl | ⟨n, rfl⟩
  · exact h
  · obtain ⟨o, ho⟩ := c.dev.choose_dev n
    rw [ho]
    exact choose o h

/-- After the command, one event is taken. -/
theorem AfterCommand.next {command : Device → Device} {before : Device} {ws : List Job} {c : Cascades}
    (h : AfterCommand command before ws c.dev c.items) {it : Item} {rest : List Item} {d : Device} (hp : pickNext c = some (it, rest, d)) :
    AfterCommand command before ws (c.next command it rest d).dev (c.next command it rest d).items := by
  have hperm := pickNext_perm hp
  have hitem : it ∈ c.items := hperm.mem_iff.mp List.mem_cons_self
  have hrest : ∀ x ∈ rest, x ∈ c.items := fun x hx => hperm.mem_iff.mp (List.mem_cons_of_mem _ hx)
  rcases Cascades.next_cases c command it rest d with ⟨hcmd, -⟩ | ⟨-, m, hdev, new, hitems, -, hnew, -⟩
  · exact absurd hcmd (h.none it hitem)
  · rw [hdev, hitems]
    refine ⟨fun x hx hxc => ?_, fun hnil => ?_, fun S P hk hP hS => ?_⟩
    · rcases List.mem_append.mp hx with hx | hx
      · exact h.none x (hrest x hx) hxc
      · have := fromOutside_of_mem_handedOn (hnew x hx).1
        rw [hxc] at this
        cases this
    · rw [(h.alone hnil).2] at hitem
      cases hitem
    · obtain ⟨hSd, hPi⟩ := h.kept S P hk hP hS
      have hSd : S d := by
        rcases (pickNext_cases hp).2.2 with rfl | ⟨n, rfl⟩
        · exact hSd
        · exact hk.choose _ n hSd
      refine ⟨hk.act _ _ _ _ hSd (hPi it hitem), fun x hx => ?_⟩
      rcases List.mem_append.mp hx with hx | hx
      · exact hPi x (hrest x hx)
      · exact hk.handsOn _ _ _ _ hSd (hPi it hitem) _ (hnew x hx).1

/-- Before the command, one event is taken: another one, or the command itself. -/
theorem BeforeCommand.next {J : Job → Nat → Prop} {tok : Job → Bool} {R : Device → List Job → Prop} (t : Tracks J tok id R)
    (htok : tok .command = false) {command : Device → Device} {c : Cascades} (h : BeforeCommand J tok R c) {it : Item} {rest : List Item} {d : Device}
    (hp : pickNext c = some (it, rest, d)) :
    BeforeCommand J tok R (c.next command it rest d)
      ∨ ∃ before ws, AtCommand J tok R before ws ∧ AfterCommand command before ws (c.next command it rest d).dev (c.next command it rest d).items := by
  have hperm := pickNext_perm hp
  have hturn := pickNext_inTurn hp
  have hrest : ∀ x ∈ rest, x.job ≠ .command → J x.job x.life := fun x hx => h.jobs x (hperm.mem_iff.mp (List.mem_cons_of_mem _ hx))
  have hcount := h.one
  rw [← (hperm.map Item.job).count_eq, List.map_cons, List.count_cons] at hcount
  have hR : R d ((it.job :: rest.map Item.job).filter tok) :=
    pickNext_dev (S := fun d => R d ((it.job :: rest.map Item.job).filter tok)) hp (fun o h => t.choices o h)
      (t.perm ((hperm.symm.map Item.job).filter tok) h.follows)
  rcases Cascades.next_jobs c command it rest d with ⟨hcmd, hdev, hitems, -⟩ | ⟨hcmd, m, -, hdev, new, hitems, hjobs, hlife⟩
  · rw [hdev, hitems]
    rw [hcmd] at hR hcount hturn
    rw [List.filter_cons_of_neg (by rw [htok]; simp)] at hR
    have hno : Job.command ∉ rest.map Item.job := List.count_eq_zero.mp (by simpa using hcount)
    have hne : ∀ x ∈ rest, x.job ≠ .command := fun x hx hxc => hno (hxc ▸ List.mem_map_of_mem hx)
    have hlate : ∀ w ∈ rest.map Item.job, w.precedes d .command = false := by
      rcases hturn.precedes with hq | hq
      · cases hq
      · exact hq
    refine .inr ⟨d, rest.map Item.job, ⟨hR, fun w hw => ?_, hlate⟩, hne, fun hnil => ⟨rfl, List.map_eq_nil_iff.mp hnil⟩,
      fun S P _ hP hS => ⟨hS, fun x hx => hP _ (List.mem_map_of_mem hx)⟩⟩
    obtain ⟨x, hx, rfl⟩ := List.mem_map.mp hw
    exact ⟨hne x hx, _, hrest x hx (hne x hx)⟩
  · have hit : J it.job it.life := h.jobs it (hperm.mem_iff.mp List.mem_cons_self) hcmd
    have hws : ∀ w ∈ rest.map Item.job, w = .command ∨ ∃ n, J w n := fun w hw => by
      obtain ⟨x, hx, rfl⟩ := List.mem_map.mp hw
      exact or_iff_not_imp_left.mpr fun hne => ⟨_, hrest x hx hne⟩
    have hnew : Job.command ∉ new.map Item.job := fun hcn => by
      rw [hjobs] at hcn
      split at hcn
      · cases hcn
      · cases fromOutside_of_mem_handedOn hcn
    refine .inl ⟨fun x hx hne => ?_, ?_, ?_⟩
    · rw [hitems] at hx
      rcases List.mem_append.mp hx with hx | hx
      · exact hrest x hx hne
      · have hl := hlife x hx
        have hx' : x.job ∈ new.map Item.job := List.mem_map_of_mem hx
        rw [hjobs, if_neg (by omega)] at hx'
        rw [← hl] at hit
        exact t.handsOn hit hcmd hws hR _ hx'
    · rw [hitems, List.map_append, List.count_append, List.count_eq_zero.mpr hnew]
      simpa [hcmd] using hcount
    · rw [hdev, hitems, List.map_append, List.filter_append, hjobs]
      have := t.act (m := m) hit hcmd hws hturn hR
      split at this
      · next h0 => rw [if_pos h0]; exact this
      · next h0 => rw [if_neg h0]; exact this

/-- The events of one moment with a command: until the command is taken, and afterwards. -/
theorem Tracks.runUntilCommand {J : Job → Nat → Prop} {tok : Job → Bool} {R : Device → List Job → Prop} (t : Tracks J tok id R)
    (htok : tok .command = false) (command : Device → Device) (d : Device) (roots : List Job) (hm : ∀ j ∈ roots, j.Modest)
    (hj : ∀ j ∈ roots, j ≠ .command → J j Config.generations) (hone : roots.count .command = 1) (h : R d (roots.filter tok)) :
    ∃ before ws, AtCommand J tok R before ws ∧ AfterCommand command before ws (d.runRoots command roots) [] := by
  obtain ⟨c, hc, hi, he⟩ := Device.runRoots_ends
    (Q := fun c => BeforeCommand J tok R c
      ∨ ∃ before ws, AtCommand J tok R before ws ∧ AfterCommand command before ws c.dev c.items)
    (command := command) d roots hm
    (.inl ⟨fun it hit hne => by obtain ⟨hjob, hlife⟩ := mem_rootItems hit; rw [hlife]; exact hj _ hjob hne, by rw [rootItems_jobs]; exact hone,
      by rw [rootItems_jobs]; exact h⟩)
    (fun c it rest d1 hQ _ hp => by
      rcases hQ with hbefore | ⟨before, ws, hat, hafter⟩
      · exact hbefore.next t htok hp
      · exact .inr ⟨before, ws, hat, hafter.next hp⟩)
  rw [he]
  rw [hi] at hc
  rcases hc with ⟨-, hone, -⟩ | hc
  · rw [hi] at hone
    cases hone
  · exact hc

end Sys2Proof.Machine

/-! The events of a good completion while terms and timers read only constants. -/

namespace Sys2Proof.Machine

/-! ## One event of a kind, and what it sets -/

/-- The one event of its kind, if there is one, sets what `f` reads from `x` to `y`: it still waits, or has been taken. -/
def Once {α : Type} (ℓ : Option Job) (f : Device → α) (x y : α) (d : Device) (ts : List Job) : Prop :=
  (ts = ℓ.toList ∧ f d = x) ∨ (ts = [] ∧ f d = y)

theorem Once.done {α : Type} {ℓ : Option Job} {f : Device → α} {x y : α} {d : Device} (h : Once ℓ f x y d []) (hn : ℓ = none → x = y) : f d = y := by
  rcases h with ⟨hts, h⟩ | ⟨-, h⟩
  · exact h.trans (hn (Option.toList_eq_nil_iff.mp hts.symm))
  · exact h

theorem once_tracks {α : Type} {kind : Job → Bool} (ℓ : Option Job) {f : Device → α} {x y : α} (houtside : ∀ j, kind j = true → j.fromOutside = true)
    (hchoices : ∀ d o, f { d with choices := o } = f d) (hother : ∀ ws d j m, kind j = false → f (settled d (act ws d j) m) = f d)
    (hset : ∀ ws d m, ∀ j ∈ ℓ, f d = x → f (settled d (act ws d j) m) = y) (hc : kind .command = false) :
    Tracks (fun _ _ => True) kind id (Once ℓ f x y) where
  perm hp h := by
    rcases h with ⟨rfl, h⟩ | ⟨rfl, h⟩
    · refine .inl ⟨?_, h⟩
      cases ℓ with
      | none => exact List.nil_perm.mp hp
      | some => exact List.perm_singleton.mp hp.symm
    · exact .inr ⟨List.nil_perm.mp hp, h⟩
  choices o h := h.imp (And.imp_right (hchoices _ o).trans) (And.imp_right (hchoices _ o).trans)
  act {ws d j n m} _ _ _ _ h := by
    have hnone : (if n = 0 then [] else (handedOn d (act ws d j) m).filter kind) = [] := by
      split
      · rfl
      · refine List.filter_eq_nil_iff.mpr fun y hy hk => ?_
        have := fromOutside_of_mem_handedOn hy
        rw [houtside _ hk] at this
        cases this
    rw [hnone, List.append_nil]
    cases hk : kind j with
    | false =>
      rw [List.filter_cons_of_neg (by simp [hk])] at h
      exact h.imp (And.imp_right (hother ws d j m hk).trans) (And.imp_right (hother ws d j m hk).trans)
    | true =>
      rw [List.filter_cons_of_pos hk] at h
      rcases h with ⟨hts, h⟩ | ⟨hts, -⟩
      · obtain ⟨hj, hws⟩ : j ∈ ℓ ∧ ws.filter kind = [] := by
          cases ℓ with
          | none => cases hts
          | some i => exact ⟨congrArg some (List.cons.inj hts).1.symm, (List.cons.inj hts).2⟩
        exact .inr ⟨hws, hset ws d m j hj h⟩
      · cases hts
  handsOn _ _ _ _ _ _ := trivial
  command _ _ _ h := by rwa [List.filter_cons_of_neg (by rw [hc]; simp)] at h

/-! ## The events -/

/-- The Monitor is not roused: the terms and the timers read constants, and the membership is `μ`. -/
structure Device.Calm (μ : Byte) (d : Device) : Prop where
  unread : d.Unread
  membership : d.monitor.membership = μ

/-- The events of a good completion, where the break word does not speak to a member group. -/
inductive OfGoodCompletion (μ : Byte) : Job → Prop
  | link : OfGoodCompletion μ .linkGood
  | sample (c : Fin 32) (w : Word) : OfGoodCompletion μ (.channelSample c w)
  | change (c : Fin 32) (x : Channel) (vs : List Validity) : OfGoodCompletion μ (.channelChange c x vs)
  | speedSample : OfGoodCompletion μ .speedSample
  | speedLoss : OfGoodCompletion μ .speedLoss
  | arrival (z : Fin 12) : OfGoodCompletion μ (.zoneArrival z)
  | validity (z : Fin 12) (v : Validity) : OfGoodCompletion μ (.zoneValidity z v)
  | control (w : Word) : OfGoodCompletion μ (.controlWord w)
  | breakWord (w : Word) : (highByte w ||| lowByte w) &&& μ = 0 → OfGoodCompletion μ (.breakWord w)
  | clock (k : Fin 6) (source : ClockSource) : OfGoodCompletion μ (.timerClock k source)
  | record : OfGoodCompletion μ (.captureRecord true)
  | request : OfGoodCompletion μ (.captureTrigger [1])
  | permit (source reason : Nat) : OfGoodCompletion μ (.permitDropped source reason)

theorem OfGoodCompletion.plain {μ : Byte} {j : Job} (h : OfGoodCompletion μ j) :
    (∀ i, j ≠ .deferredTerm i) ∧ (∀ l, j ≠ .wbrkLevel l) ∧ j.declares = false ∧ j ≠ .command := by
  cases h <;> simp [Job.declares]

theorem settled_membership (ws : List Job) (d : Device) (j : Job) (m : TermSet) :
    (settled d (act ws d j) m).monitor.membership = d.monitor.membership := by
  by_cases hj : ∀ w, j ≠ .breakWord w
  · exact (settled_sources ws d m hj).membership
  · obtain ⟨w, rfl⟩ := not_forall_not.mp hj
    obtain ⟨_, _, _, _, hs⟩ := settled_frame d (act ws d (.breakWord w)) m
    rw [hs]
    rfl

theorem Device.Calm.kept {μ : Byte} {d : Device} (h : d.Calm μ) {ws : List Job} {j : Job} (hj : ∀ i, j ≠ .deferredTerm i) (m : TermSet) :
    (settled d (act ws d j) m).Calm μ :=
  ⟨h.unread.kept ws hj m, (settled_membership ws d j m).trans h.membership⟩

theorem Device.Calm.choices {μ : Byte} {d : Device} (h : d.Calm μ) (o : Choices) : ({ d with choices := o } : Device).Calm μ :=
  ⟨h.unread.congr ⟨rfl, fun _ => rfl⟩, h.membership⟩

/-- R137: a break word that speaks to no member group brings no rise of the hard level. -/
theorem hardRises_breakWord {d : Device} (hu : d.Unread) (ws : List Job) {w : Word} (h : (highByte w ||| lowByte w) &&& d.monitor.membership = 0)
    (m : TermSet) : hardRises d (settled d (act ws d (.breakWord w)) m) = false := by
  have ht := hu.settled_terms ws (j := .breakWord w) (by simp) m
  obtain ⟨t, p, q, o, hs⟩ := settled_frame d (act ws d (.breakWord w)) m
  have hlevel : (settled d (act ws d (.breakWord w)) m).hardLevel = true → d.hardLevel = true := by
    have htoken : (settled d (act ws d (.breakWord w)) m).monitor.token = false := by
      rw [hs]
      show ((highByte w ||| lowByte w) &&& d.monitor.membership != 0) = false
      rw [h]
      decide
    have hwbrk : (settled d (act ws d (.breakWord w)) m).wbrkSource = d.wbrkSource := by
      rw [hs]
      rfl
    unfold Device.hardLevel
    rw [htoken, hwbrk, Device.anyTerm_congr ht]
    cases d.wbrkSource <;> cases d.anyTerm .hardBreak <;> simp
  unfold hardRises
  cases hd : d.hardLevel with
  | true => rfl
  | false =>
    rw [Bool.not_false, Bool.true_and, Bool.eq_false_iff]
    intro hn
    rw [hlevel hn] at hd
    cases hd

/-- Such an event hands on its own jobs and PERMIT_DROPPED. -/
theorem OfGoodCompletion.mem_handedOn {μ : Byte} {d : Device} (hd : d.Calm μ) {ws : List Job} {j x : Job} {m : TermSet} (h : OfGoodCompletion μ j)
    (hx : x ∈ handedOn d (act ws d j) m) : HandsOn d j x ∨ ∃ s r, x = .permitDropped s r := by
  obtain ⟨hterm, hwbrk, -, -⟩ := h.plain
  rcases hd.unread.mem_handedOn hterm hx with hx | hx | ⟨⟨w, rfl⟩ | ⟨l, rfl⟩, hr, -⟩
  · exact .inl hx
  · exact .inr hx
  · cases h with
    | breakWord _ hw =>
      rw [← hd.membership] at hw
      rw [hardRises_breakWord hd.unread ws hw] at hr
      cases hr
  · exact absurd rfl (hwbrk l)

/-- What such an event hands on is one of them. -/
theorem OfGoodCompletion.handsOn {μ : Byte} {d : Device} (hd : d.Calm μ) {ws : List Job} {j x : Job} {m : TermSet} (h : OfGoodCompletion μ j)
    (hx : x ∈ handedOn d (act ws d j) m) : OfGoodCompletion μ x := by
  obtain ⟨-, -, hdec, -⟩ := h.plain
  rcases h.mem_handedOn hd hx with hx | ⟨s, r, rfl⟩
  · cases hx with
    | cascade k source _ => exact .clock _ _
    | sample c w => exact .change _ _ _
    | loss => exact .speedLoss
    | validity _ _ _ v z => exact .validity z v
    | request => exact .request
    | tick => cases h
    | zonesBreak j hj | trigger j hj => rw [hdec] at hj; cases hj
  · exact .permit s r

end Sys2Proof.Machine

/-! The trigger that a delivered control word gives (O48, third part). -/

namespace Sys2Proof.Machine

/-! ## The buffer while it waits for a trigger, and after it -/

/-- The buffer `x` is `q` but for at most one record more, and that only once it is made. -/
structure Capture.StillWaits (q x : Capture) (made : Prop) : Prop where
  state : x.state = q.state
  mode : x.mode = q.mode
  latchPending : x.latchPending = q.latchPending
  latchP : x.latchP = q.latchP
  postCount : x.postCount = q.postCount
  records : x.records.length = q.records.length ∨ (made ∧ q.records.length < 512 ∧ x.records.length = q.records.length + 1)

theorem Capture.StillWaits.refl (q : Capture) (made : Prop) : q.StillWaits q made := ⟨rfl, rfl, rfl, rfl, rfl, .inl rfl⟩

theorem Capture.StillWaits.mono {q x : Capture} {made made' : Prop} (h : q.StillWaits x made) (hm : made → made') : q.StillWaits x made' :=
  { h with records := h.records.imp_right fun ⟨h1, h2⟩ => ⟨hm h1, h2⟩ }

theorem pushRecord_length (rs : List CaptureRecord) (r : CaptureRecord) :
    (pushRecord rs r).length = rs.length ∨ (rs.length < 512 ∧ (pushRecord rs r).length = rs.length + 1) := by
  unfold pushRecord
  by_cases h : rs.length < Config.captureCapacity
  · rw [if_pos h]
    exact .inr ⟨h, by simp⟩
  · rw [if_neg h]
    have : Config.captureCapacity = 512 := rfl
    exact .inl (by simp only [List.length_append, List.length_drop, List.length_singleton]; omega)

/-- R170, R171: outside POSTFILL a recording freezes nothing. -/
theorem Device.recordCompletion_running {d : Device} (h : d.capture.state ≠ .postfill) (good : Bool) :
    (d.recordCompletion good).capture.state = d.capture.state ∧ (d.recordCompletion good).capture.mode = d.capture.mode
      ∧ (d.recordCompletion good).capture.latchPending = d.capture.latchPending ∧ (d.recordCompletion good).capture.latchP = d.capture.latchP
      ∧ (d.recordCompletion good).capture.postCount = d.capture.postCount
      ∧ ((d.recordCompletion good).capture.records.length = d.capture.records.length
        ∨ (d.capture.records.length < 512 ∧ (d.recordCompletion good).capture.records.length = d.capture.records.length + 1)) := by
  have hnone : (d.capture.add (d.makeRecord good)).freezeSource = none := if_pos h
  rw [d.recordCompletion_capture, hnone]
  split
  · split
    · rw [if_neg (by simp)]
      exact ⟨rfl, rfl, rfl, rfl, rfl, pushRecord_length _ _⟩
    · exact ⟨rfl, rfl, rfl, rfl, rfl, .inl rfl⟩
  · exact ⟨rfl, rfl, rfl, rfl, rfl, .inl rfl⟩

theorem Capture.StillWaits.record {q : Capture} {d : Device} (h : q.StillWaits d.capture False) (hq : q.state = .running ∨ q.state = .waiting) (good : Bool) :
    q.StillWaits (d.recordCompletion good).capture True := by
  have hs : d.capture.state ≠ .postfill := by rw [h.state]; rcases hq with hq | hq <;> rw [hq] <;> decide
  obtain ⟨h1, h2, h3, h4, h5, h6⟩ := Device.recordCompletion_running hs good
  have hlen : d.capture.records.length = q.records.length := h.records.resolve_right fun hn => hn.1
  rw [hlen] at h6
  exact ⟨h1.trans h.state, h2.trans h.mode, h3.trans h.latchPending, h4.trans h.latchP, h5.trans h.postCount, h6.imp_right fun h => ⟨trivial, h⟩⟩

/-- The buffer has taken a trigger in the state of `q`, and goes on or is frozen. -/
structure Capture.Triggered (q x : Capture) : Prop where
  state : if q.mode = .pre then x.state = .frozen else x.state = .postfill ∨ x.state = .frozen
  postCount : x.postCount = if q.latchPending = true then q.latchP else q.postCount

theorem Capture.StillWaits.triggered {q x : Capture} {made : Prop} (h : q.StillWaits x made) : q.Triggered x.loadLatch.triggered := by
  have hpost : x.loadLatch.postCount = if q.latchPending = true then q.latchP else q.postCount := by
    unfold Capture.loadLatch
    rw [h.latchPending, ← h.latchP, ← h.postCount]
    split <;> rfl
  obtain ⟨hpre, hpostMode, hwindow⟩ := x.triggered_cases
  cases hm : q.mode with
  | pre =>
    rw [hpre (h.mode.trans hm)]
    exact ⟨by rw [if_pos hm], hpost⟩
  | post =>
    rw [hpostMode (h.mode.trans hm)]
    exact ⟨by rw [if_neg (by rw [hm]; decide)]; exact .inl rfl, hpost⟩
  | window =>
    rw [hwindow (h.mode.trans hm)]
    exact ⟨by rw [if_neg (by rw [hm]; decide)]; exact .inl rfl, hpost⟩

/-- R170, R171: after the trigger a recording leaves the buffer in POSTFILL or freezes it. -/
theorem Capture.Triggered.record {q : Capture} {d : Device} (h : q.Triggered d.capture) (good : Bool) :
    q.Triggered (d.recordCompletion good).capture := by
  obtain ⟨hs, hp⟩ := h
  rw [d.recordCompletion_capture]
  by_cases hpre : q.mode = .pre
  · rw [if_pos hpre] at hs
    rw [if_neg (by rw [hs]; decide)]
    exact ⟨by rw [if_pos hpre]; exact hs, hp⟩
  · rw [if_neg hpre] at hs
    split
    · split
      · split
        · exact ⟨by rw [if_neg hpre]; exact .inr rfl, hp⟩
        · exact ⟨by rw [if_neg hpre]; exact hs, hp⟩
      · exact ⟨by rw [if_neg hpre]; exact hs, hp⟩
    · exact ⟨by rw [if_neg hpre]; exact hs, hp⟩

/-! ## Following the control word and its trigger -/

/-- The control word and the trigger that it gives. -/
def Job.isRequest : Job → Bool
  | .controlWord _ | .captureTrigger _ => true
  | _ => false

/-- R18: the control word brings the request up. -/
def Device.requestRises (d : Device) (w : Word) : Prop := w.getLsbD 1 = true ∧ d.capture.lastRequest = false

/-- The Capture Buffer has taken the trigger of the control word. -/
structure RequestTaken (d0 d : Device) : Prop where
  buffer : d0.capture.Triggered d.capture
  told : ∃ n : Nat, (n = d0.capture.records.length ∨ (d0.capture.records.length < 512 ∧ n = d0.capture.records.length + 1))
    ∧ d0.events.Told d.events .captureTriggered 1 d0.port.cycleCount (natWord n)

/-- The control word `w` still waits, or the trigger that it gives, or what it gives has been taken; the record is made at most once. -/
structure RequestFollows (μ : Byte) (w : Word) (d0 d : Device) (ts : List Job) : Prop where
  calm : d.Calm μ
  cycleCount : d.port.cycleCount = d0.port.cycleCount
  told : d0.events.Grows (fun _ => True) d.events
  once : ts.count (.captureRecord true) ≤ 1
  phase : (ts.filter Job.isRequest = [.controlWord w] ∧ d.capture.lastRequest = d0.capture.lastRequest
        ∧ d0.capture.StillWaits d.capture (Job.captureRecord true ∉ ts))
    ∨ (ts.filter Job.isRequest = [.captureTrigger [1]] ∧ d0.requestRises w ∧ d0.capture.StillWaits d.capture (Job.captureRecord true ∉ ts))
    ∨ (ts.filter Job.isRequest = [] ∧ (d0.requestRises w → RequestTaken d0 d) ∧ (¬d0.requestRises w → d.capture.state = d0.capture.state))

end Sys2Proof.Machine

/-! Following a good completion to the Capture Buffer (O48, third part). -/

namespace Sys2Proof.Machine

section
variable {μ : Byte} {w : Word} {d0 : Device}

/-- What an event of a good completion hands on to the Capture Buffer is its own. -/
theorem Device.Calm.handedOn_capture {d : Device} (h : d.Calm μ) {ws : List Job} {j : Job} (hj : OfGoodCompletion μ j) (m : TermSet) :
    (handedOn d (act ws d j) m).filter Job.movesCapture = (act ws d j).next.filter Job.movesCapture := by
  rw [handedOn_toCapture (fun _ _ hc => hc), captureReactions_of_same (h.unread.settled_terms ws hj.plain.1 m), List.filter_nil, List.append_nil]

/-- Only a control word hands a trigger on. -/
theorem OfGoodCompletion.next_capture {j : Job} (hj : OfGoodCompletion μ j) (hc : ∀ w, j ≠ .controlWord w) (ws : List Job) (d : Device) :
    (act ws d j).next.filter Job.movesCapture = [] := by
  refine List.filter_eq_nil_iff.mpr fun x hx hm => ?_
  cases mem_act_next hx with
  | request w => exact hc w rfl
  | trigger _ hd | zonesBreak _ hd => rw [hj.plain.2.2.1] at hd; cases hd
  | tick | sample | loss | validity | cascade => cases hm

/-- Whatever leaves the buffer and the events that are followed. -/
theorem RequestFollows.other {d d' : Device} {ts : List Job} (h : RequestFollows μ w d0 d ts) (hcalm : d'.Calm μ)
    (hcount : d'.port.cycleCount = d.port.cycleCount) (hev : d.events.Grows (fun _ => True) d'.events) (hcap : d'.capture = d.capture) :
    RequestFollows μ w d0 d' ts := by
  refine ⟨hcalm, hcount.trans h.cycleCount, h.told.trans hev, h.once, ?_⟩
  rw [hcap]
  refine h.phase.imp_right (Or.imp_right fun ⟨hts, htaken, hkept⟩ => ⟨hts, fun hr => ?_, hkept⟩)
  obtain ⟨hb, n, hn, ht⟩ := htaken hr
  exact ⟨hcap ▸ hb, n, hn, ht.grows hev⟩

theorem RequestFollows.control {d : Device} {ws : List Job} {w' : Word} {m : TermSet}
    (h : RequestFollows μ w d0 d (.controlWord w' :: ws)) :
    RequestFollows μ w d0 (settled d (act ws d (.controlWord w')) m) (ws ++ (act ws d (.controlWord w')).next) := by
  have hreq : (Job.controlWord w' :: ws).filter Job.isRequest = .controlWord w' :: ws.filter Job.isRequest := rfl
  have hphase := h.phase
  rw [hreq] at hphase
  rcases hphase with ⟨hts, hlast, hwaits⟩ | ⟨hts, -⟩ | ⟨hts, -⟩
  · obtain ⟨hw, hws⟩ := List.cons.inj hts
    obtain rfl := Job.controlWord.inj hw
    have hnext : (act ws d (.controlWord w')).next = if (w'.getLsbD 1 && !d.capture.lastRequest) = true then [.captureTrigger [1]] else [] := rfl
    have hcap : (settled d (act ws d (.controlWord w')) m).capture = { d.capture with lastRequest := w'.getLsbD 1 } := by
      rw [settled_capture]
      rfl
    have hcount : (ws ++ (act ws d (.controlWord w')).next).count (.captureRecord true) ≤ 1 := by
      have := h.once
      rw [List.count_cons_of_ne (by simp)] at this
      rw [List.count_append, hnext]
      split <;> simpa
    have hmade : Job.captureRecord true ∉ Job.controlWord w' :: ws → Job.captureRecord true ∉ ws ++ (act ws d (.controlWord w')).next := fun hn => by
      rw [hnext]
      split <;> simpa using hn
    have hstill : d0.capture.StillWaits { d.capture with lastRequest := w'.getLsbD 1 }
        (Job.captureRecord true ∉ ws ++ (act ws d (.controlWord w')).next) :=
      ⟨hwaits.state, hwaits.mode, hwaits.latchPending, hwaits.latchP, hwaits.postCount, hwaits.records.imp_right (And.imp_left hmade)⟩
    refine ⟨h.calm.kept (by simp) m, (settled_act_spares ws d _ m).cycleCount.trans h.cycleCount,
      h.told.trans ((event_grows ws d _ m).mono fun _ _ => trivial), hcount, .inr ?_⟩
    rw [hcap, List.filter_append, hws, List.nil_append]
    by_cases hr : d0.requestRises w'
    · refine .inl ⟨?_, hr, hstill⟩
      rw [hnext, hlast, if_pos (by rw [hr.1, hr.2]; rfl)]
      rfl
    · refine .inr ⟨?_, fun hn => absurd hn hr, fun _ => hwaits.state⟩
      rw [hnext, hlast, if_neg]
      · rfl
      · intro hb
        obtain ⟨h1, h2⟩ := Bool.and_eq_true_iff.mp hb
        exact hr ⟨h1, by simpa using h2⟩
  · cases hts
  · cases hts

theorem RequestFollows.trigger {d : Device} {ws : List Job} {sources : List Nat} {m : TermSet}
    (hq : d0.capture.state = .running ∨ d0.capture.state = .waiting) (h : RequestFollows μ w d0 d (.captureTrigger sources :: ws)) :
    RequestFollows μ w d0 (settled d (act ws d (.captureTrigger sources)) m) ws := by
  have hreq : (Job.captureTrigger sources :: ws).filter Job.isRequest = .captureTrigger sources :: ws.filter Job.isRequest := rfl
  have hphase := h.phase
  rw [hreq] at hphase
  rcases hphase with ⟨hts, -⟩ | ⟨hts, hr, hwaits⟩ | ⟨hts, -⟩
  · cases hts
  · obtain ⟨hs, hws⟩ := List.cons.inj hts
    obtain rfl := Job.captureTrigger.inj hs
    have hact : (act ws d (.captureTrigger [1])).dev = d.captureTrigger 1 := rfl
    have haccepts : d.capture.state = .running ∨ d.capture.state = .waiting := by rw [hwaits.state]; exact hq
    obtain ⟨hc, ht, -⟩ := Device.captureTrigger_tells (d0 := d0) haccepts 1 h.told.length_le
    rw [h.cycleCount] at ht
    have hcount : ws.count (.captureRecord true) ≤ 1 := by
      have := h.once
      rwa [List.count_cons_of_ne (by simp)] at this
    refine ⟨h.calm.kept (by simp) m, (settled_act_spares ws d _ m).cycleCount.trans h.cycleCount,
      h.told.trans ((event_grows ws d _ m).mono fun _ _ => trivial), hcount, .inr (.inr ⟨hws, fun _ => ⟨?_, _, ?_, told_settled (by simp) ht m⟩,
        fun hn => absurd hr hn⟩)⟩
    · rw [settled_capture, hact, hc]
      exact hwaits.triggered
    · exact hwaits.records.imp_right And.right
  · cases hts

theorem RequestFollows.record {d : Device} {ws : List Job} {m : TermSet}
    (hq : d0.capture.state = .running ∨ d0.capture.state = .waiting) (h : RequestFollows μ w d0 d (.captureRecord true :: ws)) :
    RequestFollows μ w d0 (settled d (act ws d (.captureRecord true)) m) ws := by
  have hreq : (Job.captureRecord true :: ws).filter Job.isRequest = ws.filter Job.isRequest := rfl
  have hcap : (settled d (act ws d (.captureRecord true)) m).capture = (d.recordCompletion true).capture := settled_capture _ _ _
  have hnone : Job.captureRecord true ∉ ws := by
    have := h.once
    rw [List.count_cons_self] at this
    exact List.count_eq_zero.mp (by omega)
  have hgrows := (event_grows ws d (.captureRecord true) m).any
  have still : d0.capture.StillWaits d.capture (Job.captureRecord true ∉ Job.captureRecord true :: ws) →
      d0.capture.StillWaits (d.recordCompletion true).capture (Job.captureRecord true ∉ ws) := fun hs =>
    ((hs.mono fun hn => hn List.mem_cons_self).record hq true).mono fun _ => hnone
  have hphase := h.phase
  rw [hreq] at hphase
  refine ⟨h.calm.kept (by simp) m, (settled_act_spares ws d _ m).cycleCount.trans h.cycleCount, h.told.trans hgrows,
    by rw [List.count_eq_zero.mpr hnone]; exact Nat.zero_le 1, ?_⟩
  rw [hcap]
  refine hphase.imp (fun ⟨hts, hlast, hs⟩ => ⟨hts, (d.recordCompletion_lastRequest true).trans hlast, still hs⟩) (Or.imp
    (fun ⟨hts, hr, hs⟩ => ⟨hts, hr, still hs⟩) fun ⟨hts, htaken, hkept⟩ => ⟨hts, fun hr => ?_, fun hr => ?_⟩)
  · obtain ⟨hb, n, hn, ht⟩ := htaken hr
    exact ⟨by rw [hcap]; exact hb.record true, n, hn, ht.grows hgrows⟩
  · have hs := hkept hr
    have hne : d.capture.state ≠ .postfill := by rw [hs]; rcases hq with hq | hq <;> rw [hq] <;> decide
    exact (Device.recordCompletion_running hne true).1.trans hs

theorem request_tracks (hq : d0.capture.state = .running ∨ d0.capture.state = .waiting) :
    Tracks (fun j n => OfGoodCompletion μ j ∧ ∀ w, j = .controlWord w → n ≠ 0) Job.movesCapture id (RequestFollows μ w d0) where
  perm {d ts ts'} hp h := { h with
    once := by rw [← hp.count_eq]; exact h.once
    phase := by
      have hmem : (Job.captureRecord true ∉ ts) → Job.captureRecord true ∉ ts' := fun hn hm => hn (hp.mem_iff.mpr hm)
      exact h.phase.imp (fun ⟨hts, hl, hs⟩ => ⟨List.perm_singleton.mp (hts ▸ (hp.filter _).symm), hl, hs.mono hmem⟩) (Or.imp
        (fun ⟨hts, hr, hs⟩ => ⟨List.perm_singleton.mp (hts ▸ (hp.filter _).symm), hr, hs.mono hmem⟩)
        fun ⟨hts, hr⟩ => ⟨List.nil_perm.mp (hts ▸ hp.filter _), hr⟩) }
  choices o h := h.other (h.calm.choices o) rfl (.refl _) rfl
  act {ws d j n m} hj _ _ _ h := by
    obtain ⟨hj, hn⟩ := hj
    rw [h.calm.handedOn_capture hj m]
    by_cases hc : ∀ w, j ≠ .controlWord w
    · rw [hj.next_capture hc, ite_self, List.append_nil]
      cases hm : j.movesCapture with
      | false =>
        rw [List.filter_cons_of_neg (by rw [hm]; simp)] at h
        have hs := settled_act_spares ws d j m
        exact h.other (h.calm.kept hj.plain.1 m) hs.cycleCount (event_grows ws d j m).any (hs.capture hm)
      | true =>
        rw [List.filter_cons_of_pos hm] at h
        cases hj with
        | control w => exact absurd rfl (hc w)
        | record => exact h.record hq
        | request => exact h.trigger hq
        | _ => cases hm
    · obtain ⟨w', rfl⟩ := not_forall_not.mp hc
      rw [List.filter_cons_of_pos rfl] at h
      have hnext : (act ws d (.controlWord w')).next.filter Job.movesCapture = (act ws d (.controlWord w')).next := by
        show (if _ then _ else _ : List Job).filter _ = if _ then _ else _
        split <;> rfl
      rw [if_neg (hn w' rfl), hnext]
      exact h.control
  handsOn hj _ _ h x hx := ⟨hj.1.handsOn h.calm hx, fun w he => by
    rw [he] at hx
    cases fromOutside_of_mem_handedOn hx⟩
  command h := absurd rfl h.1.plain.2.2.2

end

end Sys2Proof.Machine

/-! The events that come together at a good completion. -/

namespace Sys2Proof.Machine

/-- What a good completion brings to the blocks: the link, the deliveries, the clocks, the recording and the command. -/
def Device.goodRoots (d : Device) (s : Staging) (command : Option (Byte × Cmd)) : List Job :=
  [.linkGood] ++ (s.samples.map fun p => Job.channelSample p.1 p.2) ++ (if s.arrives d.speed.speedChannel then [.speedSample] else [])
    ++ (((List.finRange 12).filter fun z => s.arrives d.zones[z].measChannel).map fun z => .zoneArrival z)
    ++ s.control.toList.map Job.controlWord ++ s.breakWord.toList.map Job.breakWord ++ d.cycleRoots command ++ d.recordRoots true command
    ++ (if command.isSome then [.command] else [])

theorem Device.completionRoots_good (d : Device) (s : Staging) (command : Option (Byte × Cmd)) :
    d.completionRoots true s command = d.goodRoots s command := by
  unfold Device.completionRoots Device.deliveryRoots Device.goodRoots
  cases s.control <;> cases s.breakWord <;> simp only [if_true, List.append_assoc, Option.toList, List.map_nil, List.map_cons, List.nil_append]

theorem Device.complete_good (d : Device) : d.complete true = (d.closeFrame true).runRoots
    (Device.handStaged ((d.closeFrame true).stagedCommand d.port.frame.staging))
    ((d.closeFrame true).goodRoots d.port.frame.staging ((d.closeFrame true).stagedCommand d.port.frame.staging)) := by
  unfold Device.complete
  simp only [if_true, Device.completionRoots_good]

theorem Device.mem_cycleRoots {d : Device} {command : Option (Byte × Cmd)} {j : Job} (h : j ∈ d.cycleRoots command) :
    ∃ k, j = .timerClock k .cycle := by
  unfold Device.cycleRoots Device.clockRoots at h
  split at h <;>
  · obtain ⟨k, -, rfl⟩ := List.mem_map.mp h
    exact ⟨k, rfl⟩

theorem Device.mem_recordRoots {d : Device} {good : Bool} {command : Option (Byte × Cmd)} {j : Job} (h : j ∈ d.recordRoots good command) :
    j = .captureRecord good := by
  unfold Device.recordRoots at h
  split at h
  · exact List.mem_singleton.mp h
  · cases h

theorem Device.mem_goodRoots {d : Device} {s : Staging} {command : Option (Byte × Cmd)} {j : Job} (h : j ∈ d.goodRoots s command) :
    j = .linkGood ∨ (∃ c w, j = .channelSample c w ∧ s.inputs[c] = some w) ∨ (j = .speedSample ∧ s.arrives d.speed.speedChannel = true)
      ∨ (∃ z, j = .zoneArrival z ∧ s.arrives d.zones[z].measChannel = true) ∨ (∃ w, j = .controlWord w ∧ s.control = some w)
      ∨ (∃ w, j = .breakWord w ∧ s.breakWord = some w) ∨ (∃ k, j = .timerClock k .cycle) ∨ j = .captureRecord true
      ∨ (j = .command ∧ command.isSome = true) := by
  simp only [Device.goodRoots, List.mem_append] at h
  rcases h with (((((((h | h) | h) | h) | h) | h) | h) | h) | h
  · exact .inl (List.mem_singleton.mp h)
  · obtain ⟨⟨c, w⟩, hp, rfl⟩ := List.mem_map.mp h
    obtain ⟨i, -, hi⟩ := List.mem_filterMap.mp hp
    obtain ⟨w', hw, he⟩ := Option.map_eq_some_iff.mp hi
    obtain ⟨rfl, rfl⟩ := Prod.mk.inj he
    exact .inr (.inl ⟨i, w', rfl, hw⟩)
  · split at h
    · next hs => exact .inr (.inr (.inl ⟨List.mem_singleton.mp h, hs⟩))
    · cases h
  · obtain ⟨z, hz, rfl⟩ := List.mem_map.mp h
    exact .inr (.inr (.inr (.inl ⟨z, rfl, (List.mem_filter.mp hz).2⟩)))
  · obtain ⟨w, hw, rfl⟩ := List.mem_map.mp h
    exact .inr (.inr (.inr (.inr (.inl ⟨w, rfl, Option.mem_toList.mp hw⟩))))
  · obtain ⟨w, hw, rfl⟩ := List.mem_map.mp h
    exact .inr (.inr (.inr (.inr (.inr (.inl ⟨w, rfl, Option.mem_toList.mp hw⟩)))))
  · exact .inr (.inr (.inr (.inr (.inr (.inr (.inl (Device.mem_cycleRoots h)))))))
  · exact .inr (.inr (.inr (.inr (.inr (.inr (.inr (.inl (Device.mem_recordRoots h))))))))
  · split at h
    · next hs => exact .inr (.inr (.inr (.inr (.inr (.inr (.inr (.inr ⟨List.mem_singleton.mp h, hs⟩)))))))
    · cases h

/-- Where the break word speaks to no member group, the events are those of a calm completion, and the command. -/
theorem Device.goodRoots_ofGood {μ : Byte} {d : Device} {s : Staging} {command : Option (Byte × Cmd)}
    (hb : ∀ w, s.breakWord = some w → (highByte w ||| lowByte w) &&& μ = 0) {j : Job} (h : j ∈ d.goodRoots s command) (hc : j ≠ .command) :
    OfGoodCompletion μ j := by
  rcases Device.mem_goodRoots h with rfl | ⟨c, w, rfl, -⟩ | ⟨rfl, -⟩ | ⟨z, rfl, -⟩ | ⟨w, rfl, -⟩ | ⟨w, rfl, hw⟩ | ⟨k, rfl⟩ | rfl | ⟨rfl, -⟩
  · exact .link
  · exact .sample c w
  · exact .speedSample
  · exact .arrival z
  · exact .control w
  · exact .breakWord w (hb w hw)
  · exact .clock k .cycle
  · exact .record
  · exact absurd rfl hc

theorem Device.goodRoots_modest {d : Device} {s : Staging} {command : Option (Byte × Cmd)} {j : Job} (h : j ∈ d.goodRoots s command) : j.Modest := by
  rcases Device.mem_goodRoots h with rfl | ⟨c, w, rfl, -⟩ | ⟨rfl, -⟩ | ⟨z, rfl, -⟩ | ⟨w, rfl, -⟩ | ⟨w, rfl, -⟩ | ⟨k, rfl⟩ | rfl | ⟨rfl, -⟩ <;>
    simp [Job.Modest]

theorem Device.goodRoots_follow {d : Device} {s : Staging} {command : Option (Byte × Cmd)} {j : Job} (h : j ∈ d.goodRoots s command) :
    j.follow ≤ Config.generations := by
  rcases Device.mem_goodRoots h with rfl | ⟨c, w, rfl, -⟩ | ⟨rfl, -⟩ | ⟨z, rfl, -⟩ | ⟨w, rfl, -⟩ | ⟨w, rfl, -⟩ | ⟨k, rfl⟩ | rfl | ⟨rfl, -⟩ <;>
    simp [Job.follow, Config.generations]

/-! ## Block by block -/

theorem Device.goodRoots_filter (d : Device) (s : Staging) (command : Option (Byte × Cmd)) (tok : Job → Bool) :
    (d.goodRoots s command).filter tok = [Job.linkGood].filter tok ++ ((s.samples.map fun p => Job.channelSample p.1 p.2).filter tok
      ++ ((if s.arrives d.speed.speedChannel then [Job.speedSample] else []).filter tok
      ++ ((((List.finRange 12).filter fun z => s.arrives d.zones[z].measChannel).map fun z => Job.zoneArrival z).filter tok
      ++ ((s.control.toList.map Job.controlWord).filter tok ++ ((s.breakWord.toList.map Job.breakWord).filter tok
      ++ ((d.cycleRoots command).filter tok ++ ((d.recordRoots true command).filter tok
      ++ (if command.isSome then [Job.command] else []).filter tok))))))) := by
  unfold Device.goodRoots
  simp only [List.filter_append, List.append_assoc]

theorem filter_ite_none {tok : Job → Bool} {j : Job} (h : tok j = false) (p : Prop) [Decidable p] : (if p then [j] else []).filter tok = [] := by
  split
  · rw [List.filter_cons_of_neg (by rw [h]; simp), List.filter_nil]
  · rfl

theorem Device.cycleRoots_filter_none {tok : Job → Bool} (h : ∀ k, tok (.timerClock k .cycle) = false) (d : Device)
    (command : Option (Byte × Cmd)) : (d.cycleRoots command).filter tok = [] := List.filter_eq_nil_iff.mpr fun x hx => by
  obtain ⟨k, rfl⟩ := Device.mem_cycleRoots hx
  simp [h k]

theorem Device.recordRoots_filter_none {tok : Job → Bool} (h : tok (.captureRecord true) = false) (d : Device) (command : Option (Byte × Cmd)) :
    (d.recordRoots true command).filter tok = [] := List.filter_eq_nil_iff.mpr fun x hx => by
  rw [Device.mem_recordRoots hx, h]
  simp

theorem Device.goodRoots_link (d : Device) (s : Staging) (command : Option (Byte × Cmd)) :
    (d.goodRoots s command).filter Job.movesLink = [.linkGood] := by
  rw [d.goodRoots_filter, filter_map_none (fun _ => rfl), filter_ite_none rfl, filter_map_none (fun _ => rfl), filter_map_none (fun _ => rfl),
    filter_map_none (fun _ => rfl), Device.cycleRoots_filter_none (fun _ => rfl), Device.recordRoots_filter_none rfl, filter_ite_none rfl]
  rfl

theorem Device.goodRoots_capture (d : Device) (s : Staging) (command : Option (Byte × Cmd)) :
    (d.goodRoots s command).filter Job.movesCapture = s.control.toList.map Job.controlWord ++ d.recordRoots true command := by
  have hcontrol : (s.control.toList.map Job.controlWord).filter Job.movesCapture = s.control.toList.map Job.controlWord :=
    List.filter_eq_self.mpr fun x hx => by obtain ⟨w, -, rfl⟩ := List.mem_map.mp hx; rfl
  have hrecord : (d.recordRoots true command).filter Job.movesCapture = d.recordRoots true command :=
    List.filter_eq_self.mpr fun x hx => by rw [Device.mem_recordRoots hx]; rfl
  rw [d.goodRoots_filter, filter_map_none (fun _ => rfl), filter_ite_none rfl, filter_map_none (fun _ => rfl), hcontrol,
    filter_map_none (fun _ => rfl), Device.cycleRoots_filter_none (fun _ => rfl), hrecord, filter_ite_none rfl]
  simp [Job.movesCapture]

theorem Device.goodRoots_control (d : Device) (s : Staging) (command : Option (Byte × Cmd)) :
    (d.goodRoots s command).filter (fun j => j.block == .control) = s.control.toList.map Job.controlWord := by
  have hcontrol : (s.control.toList.map Job.controlWord).filter (fun j => j.block == .control) = s.control.toList.map Job.controlWord :=
    List.filter_eq_self.mpr fun x hx => by obtain ⟨w, -, rfl⟩ := List.mem_map.mp hx; rfl
  rw [d.goodRoots_filter, filter_map_none (fun _ => rfl), filter_ite_none rfl, filter_map_none (fun _ => rfl), hcontrol,
    filter_map_none (fun _ => rfl), Device.cycleRoots_filter_none (fun _ => rfl), Device.recordRoots_filter_none rfl, filter_ite_none rfl]
  simp [Job.block]

theorem Device.goodRoots_command (d : Device) (s : Staging) (command : Option (Byte × Cmd)) :
    (d.goodRoots s command).count .command = if command.isSome then 1 else 0 := by
  rw [List.count_eq_length_filter, d.goodRoots_filter, filter_map_none (fun _ => by simp), filter_ite_none (by simp),
    filter_map_none (fun _ => by simp), filter_map_none (fun _ => by simp), filter_map_none (fun _ => by simp),
    Device.cycleRoots_filter_none (fun _ => by simp), Device.recordRoots_filter_none (by simp)]
  cases command.isSome <;> simp

end Sys2Proof.Machine

/-! Settles O48. -/

namespace Sys2Proof.Machine

theorem exec_markLevelChange (level : Bool) (s : State) : exec (.markLevelChange level) s =
    .next { s with dev := s.dev.occur (s.dev.lines.mark == some !level) (s.dev.markChange level) } := rfl

theorem Device.stagedCommand_none {d : Device} (h : d.BringsNoCommand) :
    (d.closeFrame true).stagedCommand d.port.frame.staging = none := by
  unfold Device.stagedCommand
  split
  · next node code tag rest hc =>
    refine if_neg ?_
    rintro ⟨hn, h0⟩
    exact h.elim h0 fun hne => hne node code tag rest hc hn
  · rfl

/-- R18: the Capture Buffer's last request after a delivered control word. -/
theorem Device.goodCompletion_lastRequest (d : Device) (s : Staging) {w : Word} (hw : s.control = some w) :
    (d.runRoots id (d.goodRoots s none)).capture.lastRequest = w.getLsbD 1 := by
  have hcontrol : (d.goodRoots s none).filter (fun j => j.block == .control) = [.controlWord w] := by
    rw [d.goodRoots_control, hw]
    rfl
  have t := once_tracks (kind := fun j => j.block == .control) (some (.controlWord w)) (f := fun d => d.capture.lastRequest)
    (x := d.capture.lastRequest) (y := w.getLsbD 1) (fun j hj => by cases j <;> first | rfl | cases hj) (fun _ _ => rfl)
    (fun ws d j m hj => event_lastRequest ws d (by simpa using hj) m)
    (fun ws d m j hj _ => by cases hj; rw [settled_capture]; rfl) rfl
  exact (t.runRoots d _ (fun j hj => Device.goodRoots_modest hj) (fun _ _ => trivial) (.inl ⟨hcontrol, rfl⟩)).done fun h => by cases h

/-- R18, R172: the trigger of a delivered control word, where nothing follows through terms, timers or the token. -/
theorem Device.goodCompletion_request {μ : Byte} {d : Device} (hd : d.Calm μ) (s : Staging) {w : Word} (hw : s.control = some w)
    (hb : ∀ b, s.breakWord = some b → (highByte b ||| lowByte b) &&& μ = 0) (hq : d.capture.state = .running ∨ d.capture.state = .waiting) :
    (d.requestRises w → RequestTaken d (d.runRoots id (d.goodRoots s none)))
      ∧ (¬d.requestRises w → (d.runRoots id (d.goodRoots s none)).capture.state = d.capture.state) := by
  have hrecord : d.recordRoots true none = [.captureRecord true] := by
    rw [d.recordRoots_none, if_pos (by rcases hq with hq | hq <;> rw [hq] <;> rfl)]
  have hroots : (d.goodRoots s none).filter Job.movesCapture = [.controlWord w, .captureRecord true] := by
    rw [d.goodRoots_capture, hw, hrecord]
    rfl
  have hnone : ∀ j ∈ d.goodRoots s none, j ≠ .command := fun j hj he =>
    List.count_eq_zero.mp (d.goodRoots_command s none) (he ▸ hj)
  have h := (request_tracks (μ := μ) (w := w) hq).runRoots d _ (fun j hj => Device.goodRoots_modest hj)
    (fun j hj => ⟨Device.goodRoots_ofGood hb hj (hnone j hj), fun _ _ => by decide⟩) (by
      rw [hroots]
      exact ⟨hd, rfl, .refl _, by simp, .inl ⟨rfl, rfl, .refl _ _⟩⟩)
  rcases h.phase with ⟨hts, -⟩ | ⟨hts, -⟩ | ⟨-, h⟩
  · cases hts
  · cases hts
  · exact h

/-- Settles O48: the commands by their rules; a change of MARK and a good completion followed event by event. -/
theorem captureCommandsActByState : Obligations.CaptureCommandsActByState := by
  refine ⟨fun tag record mode decimation count packed s hf h1 => ?_, ?_, ?_⟩
  · intro d q n capture running config post bytes fits emptied words
    have answers : ∀ {rc ws}, d.replyWriteCaptureConfig record mode decimation count packed = .answer rc ws → Answers config s tag 3 rc ws :=
      fun h => answers_of (c := .writeCaptureConfig record mode decimation count packed) rfl hf (by simp) rfl (.inr rfl) h
    have leaves : ∀ {d' ws}, d.replyWriteCaptureConfig record mode decimation count packed = .store d' ws → Leaves config s tag 3 d' ws :=
      fun h => leaves_of (c := .writeCaptureConfig record mode decimation count packed) rfl hf (by simp) rfl (.inr rfl) h
    have postAnswers : ∀ {rc ws}, d.replyWriteCapturePostCount mode = .answer rc ws → Answers post s tag 3 rc ws :=
      fun h => answers_of (c := .writeCaptureConfig 1 mode 0 0 (Vector.replicate 4 0)) rfl hf (by simp) rfl (.inr rfl) h
    have postLeaves : ∀ {d' ws}, d.replyWriteCapturePostCount mode = .store d' ws → Leaves post s tag 3 d' ws :=
      fun h => leaves_of (c := .writeCaptureConfig 1 mode 0 0 (Vector.replicate 4 0)) rfl hf (by simp) rfl (.inr rfl) h
    have hbytes : packedBytes packed = bytes := packedBytes_eq packed
    have hactive : q.state.active = true ↔ running := CaptureState.active_iff q.state
    refine ⟨fun h => answers (d.replyWriteCaptureConfig_misfit h1 fun h0 hd1 hd2 hm => ?_), fun cs m hfit hcode => ?_,
      fun h => postAnswers (d.replyWriteCapturePostCount_beyond h),
      fun hp1 hp2 => ⟨fun hq => postLeaves (Device.replyWriteCapturePostCount_postfill hp1 hp2 hq),
        fun hq => postLeaves (Device.replyWriteCapturePostCount_at_once hp1 hp2 hq)⟩,
      settles_of (c := .captureClear) rfl hf (by simp) rfl (.inr rfl) rfl,
      fun h => answers_of (c := .captureStart) rfl hf (by simp) rfl (.inr rfl) (if_pos ?_),
      fun h => answers_of (c := .captureStop) rfl hf (by simp) rfl (.inr rfl) (if_pos ?_),
      fun h => answers_of (c := .captureTrigger) rfl hf (by simp) rfl (.inr rfl) (if_pos ?_), fun hr => ⟨fun h => ?_, fun h => ?_, fun ha hb => ?_, fun h => ?_⟩⟩
    · cases hcs : captureList count packed with
      | none => rfl
      | some cs =>
        obtain ⟨hc1, hc2, hnodup, hmap⟩ := (captureList_iff count packed cs).mp hcs
        exact absurd ⟨cs, h0, hm, hd1, hd2, hc1, hc2, hnodup, hbytes ▸ hmap⟩ h
    · obtain ⟨rfl, hm, hd1, hd2, hc1, hc2, hnodup, hmap⟩ := hfit
      have hmode : CaptureMode.ofCode mode = some m := by
        obtain ⟨m', hm', hcode'⟩ := (CaptureMode.ofCode_eq mode).1 hm
        rw [hm', CaptureMode.code_injective (hcode.symm.trans hcode')]
      have hreply := d.replyWriteCaptureConfig_fits hmode hd1 hd2 ((captureList_iff count packed cs).mpr ⟨hc1, hc2, hnodup, hbytes.symm ▸ hmap⟩)
      refine ⟨fun h => answers ?_, fun hfrozen hrecords hchannels => answers ?_, fun h => leaves ?_⟩
      · rw [hreply, if_pos (hactive.mpr h)]
        rfl
      · rw [hreply, if_neg (by rw [show d.capture.state = .frozen from hfrozen]; decide), if_pos ⟨hfrozen, hrecords, hchannels⟩]
        rfl
      · rw [hreply, if_neg, if_neg]
        · rintro ⟨hfrozen, hrecords, hchannels⟩
          rcases h with h | ⟨-, h | h⟩
          · rw [show d.capture.state = .idle from h] at hfrozen
            cases hfrozen
          · exact hrecords h
          · exact hchannels h
        · rcases h with h | ⟨h, -⟩ <;> rw [show d.capture.state = _ from h] <;> decide
    · rcases h with h | h
      · rw [show s.dev.mailbox.ready = false from h]; rfl
      · rw [show s.dev.capture.state.active = true from hactive.mpr h, Bool.or_true]
    · rcases h with h | h
      · rw [show s.dev.mailbox.ready = false from h]; rfl
      · rw [show s.dev.capture.state.active = false from Bool.eq_false_iff.mpr fun hc => h (hactive.mp hc)]
        exact Bool.or_true _
    · rw [show s.dev.mailbox.ready = false from h]; rfl
    · refine settles_of (c := .captureStart) rfl hf (by simp) rfl (.inr rfl) (if_neg ?_)
      rw [show s.dev.mailbox.ready = true from hr, show s.dev.capture.state.active = false from Bool.eq_false_iff.mpr fun hc => h (hactive.mp hc)]
      decide
    · refine settles_of (c := .captureStop) rfl hf (by simp) rfl (.inr rfl) (if_neg ?_)
      rw [show s.dev.mailbox.ready = true from hr, show s.dev.capture.state.active = true from hactive.mpr h]
      decide
    all_goals
      have hreply : ∀ a : Bool, s.dev.capture.state.acceptsTrigger = a →
          s.dev.replyCaptureTrigger = .settled { dev := s.dev.captureTrigger 0 } fun t => words t ++ [boolWord a] := by
        rintro a rfl
        exact if_neg (by rw [show s.dev.mailbox.ready = true from hr]; decide)
    · have hno := hreply false (Bool.eq_false_iff.mpr fun hc => ((CaptureState.acceptsTrigger_iff _).mp hc).elim ha hb)
      rw [Device.captureTrigger_ignored ha hb] at hno
      exact settles_of (c := .captureTrigger) rfl hf (by simp) rfl (.inr rfl) hno
    · have hyes := hreply true ((CaptureState.acceptsTrigger_iff _).mpr h)
      rw [Device.captureTrigger_accepted h] at hyes
      obtain ⟨hpre, hpost, hwindow⟩ := s.dev.capture.triggered_cases
      refine ⟨fun hm => ?_, fun hm => ?_, fun hm => ?_⟩
      · rw [if_pos hm, hpre hm] at hyes
        exact settles_of (c := .captureTrigger) rfl hf (by simp) rfl (.inr rfl) hyes
      · rw [if_neg (by rw [show s.dev.capture.mode = .post from hm]; decide), hpost hm] at hyes
        exact settles_of (c := .captureTrigger) rfl hf (by simp) rfl (.inr rfl) hyes
      · rw [if_neg (by rw [show s.dev.capture.mode = .window from hm]; decide), hwindow hm] at hyes
        exact settles_of (c := .captureTrigger) rfl hf (by simp) rfl (.inr rfl) hyes
  · intro level s j v h q n loaded rises
    have hexec : exec (.markLevelChange level) s = .next { s with dev := s.dev.markChange level } := by
      rw [exec_markLevelChange, h.2.1, Device.occur, if_pos (by rw [h.1]; simp)]
    refine ⟨_, hexec, fun hr => ?_, fun hr hb => ?_⟩
    · obtain ⟨hterm, hv, hstate⟩ := hr
      obtain ⟨hc, ht, hf⟩ := (Device.markChange_trigger h (by rw [hterm]; decide)).taken ⟨hterm, hv⟩ hstate
      obtain ⟨hpre, hpost, hwindow⟩ := q.triggered_cases
      exact ⟨ht, fun hm => ⟨hc.trans (hpre hm), hf hm⟩, fun hm => hc.trans (hpost hm), fun hm => hc.trans (hwindow hm)⟩
    · exact (Device.markChange_trigger h hb).kept fun ⟨⟨hterm, hv⟩, hstate⟩ => hr ⟨hterm, hv, hstate⟩
  · intro skipped s w d q rises waits hr hgood hno hu hw hb
    have hend : d.endFrame false = (d.closeFrame true).runRoots id ((d.closeFrame true).goodRoots d.port.frame.staging none) := by
      obtain ⟨k, hp, hpos, hcrc⟩ := hgood
      rw [Device.endFrame_completes hr (.inr ⟨k, hp⟩), (d.endsGood_iff false).mpr ⟨k, hp, hpos, hcrc, rfl⟩, d.complete_good,
        Device.stagedCommand_none hno]
      rfl
    have hcalm : (d.closeFrame true).Calm d.monitor.membership := ⟨hu.congr ⟨rfl, fun _ => rfl⟩, rfl⟩
    have hreq := fun h => (d.closeFrame true).goodCompletion_request hcalm d.port.frame.staging hw hb h
    have hlast := (d.closeFrame true).goodCompletion_lastRequest d.port.frame.staging hw
    rw [← hend] at hlast
    simp only [← hend] at hreq
    refine ⟨{ s with dev := d.endFrame false }, exec_cycleCompletion skipped false s, hlast, fun hrise hwaits => ?_, fun hrise hwaits => (hreq hwaits).2 hrise⟩
    obtain ⟨⟨hstate, hpost⟩, htold⟩ := (hreq hwaits).1 hrise
    exact ⟨hstate, hpost, htold⟩

end Sys2Proof.Machine

/-! The channels and the tracker at a good completion (O13). -/

namespace Sys2Proof.Machine

/-! ## The samples, channel by channel -/

theorem filterMap_finRange_one {n : Nat} {α : Type} {g : Fin n → Option α} {c : Fin n} (h : ∀ i, i ≠ c → g i = none) :
    (List.finRange n).filterMap g = (g c).toList := by
  obtain ⟨ys, zs, he⟩ := List.append_of_mem (List.mem_finRange c)
  have hn := List.nodup_finRange n
  rw [he, List.nodup_append] at hn
  obtain ⟨-, hz, hd⟩ := hn
  have hys : ys.filterMap g = [] := List.filterMap_eq_nil_iff.mpr fun i hi => h i fun hic => hd i hi c List.mem_cons_self hic
  have hzs : zs.filterMap g = [] := List.filterMap_eq_nil_iff.mpr fun i hi => h i fun hic => (List.nodup_cons.mp hz).1 (hic ▸ hi)
  rw [he, List.filterMap_append, hys, List.nil_append]
  cases hg : g c with
  | none => rw [List.filterMap_cons_none hg, hzs]; rfl
  | some a => rw [List.filterMap_cons_some hg, hzs]; rfl

theorem Staging.samples_channel (s : Staging) (c : Fin 32) :
    (s.samples.map fun p => Job.channelSample p.1 p.2).filter (Job.atChannel c) = s.inputs[c].toList.map (Job.channelSample c) := by
  unfold Staging.samples
  rw [List.map_filterMap, List.filter_filterMap, filterMap_finRange_one (c := c)]
  · cases s.inputs[c] with
    | none => rfl
    | some w => simp [Job.atChannel]
  · intro i hi
    cases s.inputs[i] with
    | none => rfl
    | some w => simp [Job.atChannel, hi]

theorem Device.goodRoots_channel (d : Device) (s : Staging) (command : Option (Byte × Cmd)) (c : Fin 32) :
    (d.goodRoots s command).filter (Job.atChannel c) = s.inputs[c].toList.map (Job.channelSample c) := by
  rw [d.goodRoots_filter, s.samples_channel, filter_ite_none rfl, filter_map_none (fun _ => rfl), filter_map_none (fun _ => rfl),
    filter_map_none (fun _ => rfl), Device.cycleRoots_filter_none (fun _ => rfl), Device.recordRoots_filter_none rfl, filter_ite_none rfl]
  simp [Job.atChannel]

/-- R29: the channel's record when its staged sample, if there is one, has been taken. -/
def Staging.sampled (s : Staging) (c : Fin 32) (x : Channel) : Channel := s.inputs[c].elim x fun w => (x.takeSample w).1

/-- The validities that the staged sample brings the channel through. -/
def Staging.sampledValidities (s : Staging) (c : Fin 32) (x : Channel) : List Validity := s.inputs[c].elim [] (sampleValidities x)

/-- The channel's staged sample still waits, or there is none. -/
theorem Device.goodRoots_channelFollows (d : Device) (s : Staging) (command : Option (Byte × Cmd)) (c : Fin 32) :
    ChannelFollows c d.channels[c] (s.sampled c d.channels[c]) (s.sampledValidities c d.channels[c]) d
      ((d.goodRoots s command).filter (Job.atChannel c)) := by
  rw [d.goodRoots_channel]
  unfold Staging.sampled Staging.sampledValidities
  cases s.inputs[c] with
  | none => exact .inr (.inr ⟨rfl, rfl⟩)
  | some w => exact .inl ⟨_, rfl, Job.brings_sample c _ w, rfl⟩

/-! ## The kinds of samples -/

theorem Channel.fail_kind (x : Channel) (cause : Word) : (x.fail cause).1.kind = x.kind := by
  unfold Channel.fail Channel.takeComparators
  split <;> rfl

theorem Channel.takeSample_kind (x : Channel) (w : Word) : (x.takeSample w).1.kind = x.kind := by
  unfold Channel.takeSample Channel.takeDiscrete Channel.takeAnalog Channel.takeComparators
  split
  · exact Channel.fail_kind _ 1
  · split <;> rfl

/-- R31, R35: a sample other than the fault code brings the channel to FRESH. -/
theorem Channel.takeSample_fresh (x : Channel) {w : Word} (h : w ≠ sensorFault) : (x.takeSample w).1.validity = .fresh := by
  unfold Channel.takeSample Channel.takeDiscrete Channel.takeAnalog Channel.takeComparators
  rw [if_neg h]
  split <;> rfl

theorem Channel.takeSample_fault (x : Channel) : (x.takeSample sensorFault).1.validity = .failed := by
  unfold Channel.takeSample
  rw [if_pos rfl]
  exact (Channel.fail_frame _ 1).1

theorem sampleValidities_fresh (x : Channel) {w : Word} (h : w ≠ sensorFault) :
    sampleValidities x w = if x.validity = .fresh then [] else [.fresh] := by
  unfold sampleValidities
  rw [x.takeSample_fresh h]
  by_cases hx : x.validity = .fresh
  · rw [if_pos hx]
    exact if_pos hx.symm
  · rw [if_neg hx]
    exact if_neg fun he => hx he.symm

theorem sampleValidities_fault (x : Channel) : sampleValidities x sensorFault = if x.validity = .failed then [] else [.failed] := by
  unfold sampleValidities
  rw [x.takeSample_fault]
  by_cases hx : x.validity = .failed
  · rw [if_pos hx]
    exact if_pos hx.symm
  · rw [if_neg hx]
    exact if_neg fun he => hx he.symm

/-! ## The tracker -/

/-- R45, R49: the tracker when its channel has gone to `x'`, through these validities, and a sample has arrived or none. -/
def Speed.follows (v : Speed) (x x' : Channel) (vs : List Validity) (arrives : Bool) : Speed :=
  if arrives then (if x'.kind = .speed then v.takeSample x'.filtered else v) else if x.validity = .fresh ∧ vs ≠ [] then v.lose else v

/-- The tracker of `d0` while its channel goes from `x` to `x'`; `cs` waits at the channel, `ts` at the tracker: its sample waits, or its loss, or the
channel, or it has taken what there is. -/
structure SpeedFollows (d0 : Device) (x x' : Channel) (vs : List Validity) (arrives : Bool) (d : Device) (cs ts : List Job) : Prop where
  channel : ChannelFollows d0.speed.speedChannel x x' vs d cs
  which : d.speed.speedChannel = d0.speed.speedChannel
  tracker : (ts = [.speedSample] ∧ arrives = true ∧ d.speed = d0.speed)
    ∨ (ts = [.speedLoss] ∧ arrives = false ∧ (x.validity = .fresh ∧ vs ≠ []) ∧ cs = [] ∧ d.speed = d0.speed)
    ∨ (ts = [] ∧ arrives = false ∧ cs ≠ [] ∧ d.speed = d0.speed)
    ∨ (ts = [] ∧ cs = [] ∧ d.speed = d0.speed.follows x x' vs arrives)

theorem ofTracker_handedOn (ws : List Job) (d : Device) (j : Job) (m : TermSet) :
    (handedOn d (act ws d j) m).filter Job.ofTracker = (act ws d j).next.filter Job.ofTracker :=
  handedOn_filter (fun _ _ _ h => by cases h <;> rfl) d _ m

/-- Only the change of its channel hands a loss to the tracker. -/
theorem ofTracker_next {ws : List Job} {d : Device} {j : Job} (h : ∀ x vs, j ≠ .channelChange d.speed.speedChannel x vs) :
    (act ws d j).next.filter Job.ofTracker = [] := by
  refine List.filter_eq_nil_iff.mpr fun x hx ht => ?_
  cases mem_act_next hx with
  | loss x vs => exact h x vs rfl
  | _ => cases ht

theorem validityJobs_tracker (d : Device) (c : Fin 32) (old : Validity) (vs : List Validity) :
    (validityJobs d c old vs).filter Job.ofTracker = if c = d.speed.speedChannel ∧ old = .fresh ∧ vs ≠ [] then [.speedLoss] else [] := by
  have hzones : (vs.flatMap fun v => ((List.finRange 12).filter fun z => d.zones[z].measChannel == c).map fun z => Job.zoneValidity z v).filter
      Job.ofTracker = [] := by
    refine List.filter_eq_nil_iff.mpr fun x hx => ?_
    obtain ⟨v, -, hx⟩ := List.mem_flatMap.mp hx
    obtain ⟨z, -, rfl⟩ := List.mem_map.mp hx
    simp [Job.ofTracker]
  unfold validityJobs
  rw [List.filter_append, hzones, List.append_nil]
  split <;> rfl

section
variable {d0 : Device} {x x' : Channel} {vs : List Validity} {arrives : Bool}

/-- The tracker takes its sample. -/
theorem SpeedFollows.sample {d : Device} {cs ts : List Job} (h : SpeedFollows d0 x x' vs arrives d cs (.speedSample :: ts)) (hcs : cs = [])
    (ws : List Job) (m : TermSet) : SpeedFollows d0 x x' vs arrives (settled d (act ws d .speedSample) m) [] ts := by
  have hspeed : (settled d (act ws d .speedSample) m).speed = d.speedSample.speed := by
    obtain ⟨_, _, _, _, hs⟩ := settled_frame d (act ws d .speedSample) m
    rw [hs]
    rfl
  have hch := event_channel ws d (j := .speedSample) (c := d0.speed.speedChannel) (.inl rfl) m
  rcases h.tracker with ⟨hts, harr, hs⟩ | ⟨hts, -⟩ | ⟨hts, -⟩ | ⟨hts, -⟩
  · have hread : d.channels[d0.speed.speedChannel] = x' := by
      rcases h.channel with ⟨r, hr, -⟩ | ⟨hr, -⟩ | ⟨-, hx⟩
      · rw [hcs] at hr; cases hr
      · rw [hcs] at hr; cases hr
      · exact hx
    have hown : d.channels[d.speed.speedChannel] = x' := (congrArg (fun c : Fin 32 => d.channels[c]) h.which).trans hread
    have hfinal : d.speedSample.speed = d0.speed.follows x x' vs arrives := by
      unfold Device.speedSample Speed.follows
      dsimp only
      rw [hown, if_pos harr]
      split
      · exact congrArg (fun v : Speed => v.takeSample x'.filtered) hs
      · exact hs
    refine ⟨.inr (.inr ⟨rfl, hch.trans hread⟩), ?_, .inr (.inr (.inr ⟨(List.cons.inj hts).2, rfl, hspeed.trans hfinal⟩))⟩
    rw [hspeed]
    unfold Device.speedSample
    dsimp only
    split
    · exact h.which
    · exact h.which
  · cases hts
  · cases hts
  · cases hts

/-- The tracker takes its loss. -/
theorem SpeedFollows.loss {d : Device} {cs ts : List Job} (h : SpeedFollows d0 x x' vs arrives d cs (.speedLoss :: ts))
    (ws : List Job) (m : TermSet) : SpeedFollows d0 x x' vs arrives (settled d (act ws d .speedLoss) m) cs ts := by
  have hspeed : (settled d (act ws d .speedLoss) m).speed = d.speed.lose := by
    obtain ⟨_, _, _, _, hs⟩ := settled_frame d (act ws d .speedLoss) m
    rw [hs]
    rfl
  have hch := event_channel ws d (j := .speedLoss) (c := d0.speed.speedChannel) (.inl rfl) m
  rcases h.tracker with ⟨hts, -⟩ | ⟨hts, harr, hlose, hcs, hs⟩ | ⟨hts, -⟩ | ⟨hts, -⟩
  · cases hts
  · refine ⟨h.channel.keep hch, by rw [hspeed]; exact h.which, .inr (.inr (.inr ⟨(List.cons.inj hts).2, hcs, ?_⟩))⟩
    rw [hspeed, hs]
    unfold Speed.follows
    rw [if_neg (by rw [harr]; simp), if_pos hlose]
  · cases hts
  · cases hts

/-- Another event leaves the tracker, where it hands nothing to it and empties no channel. -/
theorem SpeedFollows.other {d d' : Device} {cs cs' ts : List Job} (h : SpeedFollows d0 x x' vs arrives d cs ts)
    (hc : ChannelFollows d0.speed.speedChannel x x' vs d' cs') (hs : d'.speed = d.speed) (hcs : cs' = [] ↔ cs = []) :
    SpeedFollows d0 x x' vs arrives d' cs' ts := by
  refine ⟨hc, by rw [hs]; exact h.which, ?_⟩
  rw [hs]
  exact h.tracker.imp_right (Or.imp (fun ⟨hts, ha, hl, he, hv⟩ => ⟨hts, ha, hl, hcs.mpr he, hv⟩) (Or.imp
    (fun ⟨hts, ha, he, hv⟩ => ⟨hts, ha, fun he' => he (hcs.mp he'), hv⟩) fun ⟨hts, he, hv⟩ => ⟨hts, hcs.mpr he, hv⟩))

/-- The change of the tracker's channel. -/
theorem SpeedFollows.change {d d' : Device} {cs ts : List Job} {j : Job} (harr : arrives = true → ¬(x.validity = .fresh ∧ vs ≠ []))
    (h : SpeedFollows d0 x x' vs arrives d (j :: cs) ts) (hc : ChannelFollows d0.speed.speedChannel x x' vs d' []) (hs : d'.speed = d.speed) :
    SpeedFollows d0 x x' vs arrives d' [] (ts ++ if x.validity = .fresh ∧ vs ≠ [] then [.speedLoss] else []) := by
  refine ⟨hc, by rw [hs]; exact h.which, ?_⟩
  rw [hs]
  rcases h.tracker with ⟨hts, ha, hv⟩ | ⟨-, -, -, he, -⟩ | ⟨hts, ha, -, hv⟩ | ⟨-, he, -⟩
  · rw [if_neg (harr ha), List.append_nil]
    exact .inl ⟨hts, ha, hv⟩
  · cases he
  · by_cases hl : x.validity = .fresh ∧ vs ≠ []
    · rw [if_pos hl, hts]
      exact .inr (.inl ⟨rfl, ha, hl, rfl, hv⟩)
    · rw [if_neg hl, hts]
      refine .inr (.inr (.inr ⟨rfl, rfl, hv.trans ?_⟩))
      unfold Speed.follows
      rw [if_neg (by rw [ha]; simp), if_neg hl]
  · cases he

theorem perm_nil_iff {a b : List Job} (h : a.Perm b) : b = [] ↔ a = [] :=
  ⟨fun hb => List.perm_nil.mp (hb ▸ h), fun ha => List.nil_perm.mp (ha ▸ h)⟩

theorem SpeedFollows.perm {d : Device} {cs cs' ts ts' : List Job} (hc : cs.Perm cs') (ht : ts.Perm ts')
    (h : SpeedFollows d0 x x' vs arrives d cs ts) : SpeedFollows d0 x x' vs arrives d cs' ts' :=
  ⟨(channel_tracks d0.speed.speedChannel x x' vs).perm hc h.channel, h.which,
    h.tracker.imp (fun ⟨hts, hr⟩ => ⟨List.perm_singleton.mp (hts ▸ ht.symm), hr⟩) (Or.imp
      (fun ⟨hts, ha, hl, hcs, hv⟩ => ⟨List.perm_singleton.mp (hts ▸ ht.symm), ha, hl, (perm_nil_iff hc).mpr hcs, hv⟩) (Or.imp
      (fun ⟨hts, ha, hcs, hv⟩ => ⟨(perm_nil_iff ht).mpr hts, ha, fun he => hcs ((perm_nil_iff hc).mp he), hv⟩)
      fun ⟨hts, hcs, hv⟩ => ⟨(perm_nil_iff ht).mpr hts, (perm_nil_iff hc).mpr hcs, hv⟩))⟩

theorem Job.ofChannel_of_atChannel {c : Fin 32} {j : Job} (h : j.atChannel c = true) : j.ofChannel = true := by
  cases j
  case channelTick | channelSample | channelChange => rfl
  all_goals cases h

theorem filter_atChannel_none {ws : List Job} (h : ∀ w ∈ ws, w.ofChannel = false) (c : Fin 32) : ws.filter (Job.atChannel c) = [] :=
  List.filter_eq_nil_iff.mpr fun w hw hc => by
    cases (h w hw).symm.trans (Job.ofChannel_of_atChannel hc)

/-- An event that is no change leaves the channel waiting as it did. -/
theorem waits_at_channel {c : Fin 32} {d : Device} {us ws : List Job} {j : Job} {n : Nat} {m : TermSet} (hn : j.follow ≤ n)
    (hchange : ∀ y us, j ≠ .channelChange c y us) (h : ChannelFollows c x x' vs d ((j :: ws).filter (Job.atChannel c))) :
    (ws.filter (Job.atChannel c) ++ if n = 0 then [] else (handedOn d (act us d j) m).filter (Job.atChannel c)) = []
      ↔ (j :: ws).filter (Job.atChannel c) = [] := by
  rw [atChannel_handedOn]
  cases hk : j.atChannel c with
  | false =>
    rw [List.filter_cons_of_neg (by rw [hk]; simp), atChannel_next (.inl hk), ite_self, List.append_nil]
  | true =>
    rw [List.filter_cons_of_pos hk] at h ⊢
    rcases h with ⟨r, hts, hr, hx⟩ | ⟨hts, -⟩ | ⟨hts, -⟩
    · obtain ⟨rfl, -⟩ := List.cons.inj hts
      have hn0 : n ≠ 0 := fun h0 => by rw [hr.announces, h0] at hn; omega
      rw [hr.next us d hx, if_neg hn0]
      simp [Job.atChannel]
    · exact absurd (List.cons.inj hts).1 (hchange _ _)
    · cases hts

theorem speed_tracks (harr : arrives = true → ¬(x.validity = .fresh ∧ vs ≠ [])) :
    Tracks (fun j n => j ≠ .command ∧ j.follow ≤ n) Job.notCommand id fun d ts => SpeedFollows d0 x x' vs arrives d
      (ts.filter (Job.atChannel d0.speed.speedChannel)) (ts.filter Job.ofTracker) where
  perm hp h := h.perm (hp.filter _) (hp.filter _)
  choices o h := ⟨(channel_tracks d0.speed.speedChannel x x' vs).choices o h.channel, h.which, h.tracker⟩
  act {ws d j n m} hj hcmd hws hturn h := by
    rw [filter_notCommand rfl, filter_notCommand rfl] at h
    rw [filter_notCommand_append rfl, filter_notCommand_append rfl]
    have hc := (channel_tracks d0.speed.speedChannel x x' vs).act (m := m) hj hcmd hws hturn h.channel
    have hspares := settled_act_spares ws d j m
    by_cases hchange : ∀ y us, j ≠ .channelChange d0.speed.speedChannel y us
    · have hwait := waits_at_channel (us := ws) (m := m) hj.2 hchange h.channel
      have hnone : (if n = 0 then [] else (handedOn d (act ws d j) m).filter Job.ofTracker) = [] := by
        rw [ofTracker_handedOn, ofTracker_next fun y us => by rw [h.which]; exact hchange y us, ite_self]
      rw [hnone, List.append_nil]
      cases ht : j.ofTracker with
      | false =>
        rw [List.filter_cons_of_neg (p := Job.ofTracker) (by rw [ht]; simp)] at h
        exact h.other hc (hspares.speed ht) hwait
      | true =>
        rw [List.filter_cons_of_pos ht] at h
        cases j
        case speedSample =>
          have hnot : ∀ a ∈ ws, a.ofChannel = false := fun a ha => by
            rcases hturn.precedes with hq | hq
            · cases hq
            · exact (Bool.or_eq_false_iff.mp (hq a ha)).2
          have hempty := filter_atChannel_none hnot d0.speed.speedChannel
          have hcs : (Job.speedSample :: ws).filter (Job.atChannel d0.speed.speedChannel) = [] := by
            rw [List.filter_cons_of_neg (by simp [Job.atChannel])]
            exact hempty
          rw [hwait.mpr hcs]
          exact h.sample hcs ws m
        case speedLoss =>
          have hsame : (ws.filter (Job.atChannel d0.speed.speedChannel) ++ if n = 0 then []
              else (handedOn d (act ws d .speedLoss) m).filter (Job.atChannel d0.speed.speedChannel))
              = (Job.speedLoss :: ws).filter (Job.atChannel d0.speed.speedChannel) := by
            rw [atChannel_handedOn, atChannel_next (.inl rfl), ite_self, List.append_nil, List.filter_cons_of_neg (by simp [Job.atChannel])]
          rw [hsame]
          exact h.loss ws m
        all_goals cases ht
    · obtain ⟨y, us, rfl⟩ : ∃ y us, j = .channelChange d0.speed.speedChannel y us := by
        simpa only [not_forall, not_not] using hchange
      have hn : n ≠ 0 := fun h0 => by have := hj.2; rw [h0] at this; exact absurd this (by simp [Job.follow])
      rw [List.filter_cons_of_pos (p := Job.atChannel _) (by simp [Job.atChannel]), List.filter_cons_of_neg (p := Job.ofTracker) (by simp [Job.ofTracker])] at h
      have hch := h.channel
      rcases hch with ⟨r, hts, hr, -⟩ | ⟨hts, hx⟩ | ⟨hts, -⟩
      · rw [← (List.cons.inj hts).1] at hr
        cases hr.announces
      · obtain ⟨he, hws'⟩ := List.cons.inj hts
        obtain ⟨-, rfl, rfl⟩ := Job.channelChange.inj he
        have hnext : (act ws d (.channelChange d0.speed.speedChannel y us)).next.filter Job.ofTracker =
            if x.validity = .fresh ∧ us ≠ [] then [.speedLoss] else [] := by
          show (validityJobs d _ _ _).filter _ = _
          rw [validityJobs_tracker, h.which, hx]
          simp
        have hempty : (ws.filter (Job.atChannel d0.speed.speedChannel) ++ if n = 0 then []
            else (handedOn d (act ws d (.channelChange d0.speed.speedChannel y us)) m).filter (Job.atChannel d0.speed.speedChannel)) = [] := by
          rw [atChannel_handedOn, atChannel_next (.inr (by simp [Job.follow])), ite_self, hws', List.append_nil]
        rw [hempty] at hc ⊢
        rw [if_neg hn, ofTracker_handedOn, hnext]
        exact h.change harr hc (hspares.speed rfl)
      · cases hts
  handsOn {ws d j n m} hj _ _ _ y hy := ⟨fun hc => (by subst hc; cases fromOutside_of_mem_handedOn hy), follow_handedOn hj.2 hy⟩
  command h := absurd rfl h.1

end

end Sys2Proof.Machine

/-! A zone at a good completion: it sees its channel return, and updates with the new values (O13). -/

namespace Sys2Proof.Machine

/-! ## The zone's record -/

/-- R84: the record of a zone that leaves HOLD for its return mode. -/
def Zone.resumed (y : Zone) : Zone :=
  match y.returnMode with
  | .none => y
  | .purge => y.toPurge
  | .preheat => { y with mode := .preheat, returnMode := .none }
  | .track => { y with mode := .track, returnMode := .none }

theorem Device.resumeZone_record (d : Device) (z : Fin 12) : (d.resumeZone z).zones[z] = d.zones[z].resumed := by
  unfold Device.resumeZone Zone.resumed
  dsimp only
  cases h : d.zones[z].returnMode <;> simp only [ReturnMode.mode]
  all_goals exact d.setZone_read z _

/-- R84: the record of a zone whose channel becomes FRESH, while its hold demand is down. -/
def Zone.seesFresh (y : Zone) : Zone := if y.mode = .hold then y.resumed else y

theorem Zone.seesFresh_other {y : Zone} (h : y.mode ≠ .hold) : y.seesFresh = y := if_neg h

theorem Zone.seesFresh_hold {y : Zone} (h : y.mode = .hold) : y.seesFresh = y.resumed := if_pos h

theorem Zone.seesFresh_measChannel (y : Zone) : y.seesFresh.measChannel = y.measChannel := by
  unfold Zone.seesFresh Zone.resumed
  split
  · split <;> rfl
  · rfl

/-- A zone that has seen its channel return does not see it anew. -/
theorem Zone.seesFresh_twice (y : Zone) : y.seesFresh.seesFresh = y.seesFresh := by
  by_cases h : y.mode = .hold
  · rw [Zone.seesFresh_hold h]
    unfold Zone.resumed
    cases hr : y.returnMode with
    | none =>
      dsimp only
      rw [Zone.seesFresh_hold h, Zone.resumed, hr]
    | purge => exact Zone.seesFresh_other Mode.noConfusion
    | preheat => exact Zone.seesFresh_other Mode.noConfusion
    | track => exact Zone.seesFresh_other Mode.noConfusion
  · rw [Zone.seesFresh_other h, Zone.seesFresh_other h]

theorem Device.zoneSeesValidity_returns {d : Device} {z : Fin 12} {b : Bool} (h : d.zones[z].mode = .hold → b = false) :
    (d.zoneSeesValidity z .fresh b).zones[z] = d.zones[z].seesFresh := by
  unfold Device.zoneSeesValidity
  dsimp only
  by_cases hm : d.zones[z].mode = .hold
  · rw [Zone.seesFresh_hold hm, hm, h hm]
    exact d.resumeZone_record z
  · rw [Zone.seesFresh_other hm]
    cases hd : d.zones[z].mode <;> first | rfl | exact absurd hd hm

/-! ## The update -/

/-- R92, R93, R98: the record of a zone after an arrival, for what its update reads. -/
def Zone.arrived (kind : ZoneKind) (y : Zone) (x : UpdateInput) : Zone :=
  if y.mode = .preheat ∨ y.mode = .track then
    if y.overTemperature x.m then { y.toFault with bumpless := false }
    else
      let y1 := if y.tracksNow x then { y with mode := .track } else y
      if y1.rebases then { y1.compute kind x with bumpless := false } else y1.compute kind x
  else y

theorem Zone.arrived_stands {y : Zone} (hp : y.mode ≠ .preheat) (ht : y.mode ≠ .track) (kind : ZoneKind) (x : UpdateInput) : y.arrived kind x = y :=
  if_neg fun h => h.elim hp ht

theorem Zone.arrived_measChannel (kind : ZoneKind) (y : Zone) (x : UpdateInput) : (y.arrived kind x).measChannel = y.measChannel := by
  unfold Zone.arrived
  have hy1 : (if y.tracksNow x then { y with mode := .track } else y).measChannel = y.measChannel := by split <;> rfl
  split
  · split
    · rfl
    dsimp only
    generalize (if y.tracksNow x then { y with mode := .track } else y) = y1 at hy1
    split <;> exact hy1
  · rfl

theorem Device.zoneArrival_record (d : Device) (z : Fin 12) :
    (d.zoneArrival z).zones[z] = d.zones[z].arrived (zoneKind z) (d.updateInput z) := by
  unfold Device.zoneArrival Zone.arrived
  dsimp only
  split
  · split
    · exact d.faultZone_zone z 2
    generalize (if d.zones[z].tracksNow (d.updateInput z) then { d.zones[z] with mode := .track } else d.zones[z]) = y1
    split
    · rw [Device.endMark_zone, Device.setZone_read]
    · exact d.setZone_read z _
  · rfl

/-- What the update of a zone that measures this channel reads. -/
def Device.updateFrom (d : Device) (z : Fin 12) (c : Fin 32) : UpdateInput :=
  { m := d.channels[c].filtered, lead := d.speed.lead, armed := d.monitor.state == .armed, moving := d.speed.state.moving, curve := d.profile.active[z] }

theorem Device.updateInput_eq {d : Device} {z : Fin 12} {c : Fin 32} (h : d.zones[z].measChannel = c) : d.updateInput z = d.updateFrom z c := by
  rw [← h]
  rfl

theorem Device.updateFrom_congr {d d' : Device} (hc : d'.channels = d.channels) (hs : d'.speed = d.speed) (hm : d'.monitor.state = d.monitor.state)
    (ha : d'.profile.active = d.profile.active) (z : Fin 12) (c : Fin 32) : d'.updateFrom z c = d.updateFrom z c := by
  unfold Device.updateFrom
  rw [hc, hs, hm, ha]

/-- R84: leaving HOLD moves nothing that an update reads. -/
theorem Device.resumeZone_updateFrom (d : Device) (z : Fin 12) (c : Fin 32) : (d.resumeZone z).updateFrom z c = d.updateFrom z c := by
  unfold Device.resumeZone
  dsimp only
  split <;> rfl

end Sys2Proof.Machine

/-! Following a zone through a good completion (O13). -/

namespace Sys2Proof.Machine

/-- R36, R45, R84: what a zone sees before its arrival. -/
def Job.beforeArrival (z : Fin 12) (j : Job) : Bool := j.ofChannel || j.ofTracker || j.block == .zoneValidity z

theorem Job.beforeArrival_of_precedes {d : Device} {a : Job} {z : Fin 12} (h : a.precedes d (.zoneArrival z) = false) :
    a.beforeArrival z = false := by
  have h2 := (Bool.or_eq_false_iff.mp h).2
  unfold Job.beforeArrival
  cases a
  case zoneValidity y v =>
    have hy : y ≠ z := by simpa [Job.ofChannel, Job.ofTracker] using h2
    simp [Job.ofChannel, Job.ofTracker, Job.block, hy]
  all_goals exact h2

theorem Zone.mode_of_settledMode {y : Zone} (h : y.settledMode = true) : y.mode ≠ .preheat ∧ y.mode ≠ .track ∧ y.mode ≠ .hold := by
  refine ⟨fun hm => ?_, fun hm => ?_, fun hm => ?_⟩ <;>
  · unfold Zone.settledMode at h
    rw [hm] at h
    cases h

/-- The zone `z` takes a sample of its channel, which comes to FRESH through `vs`: it updates, or holds until its channel has returned. -/
structure Device.TakesSample (d0 : Device) (z : Fin 12) (vs : List Validity) : Prop where
  mode : d0.zones[z].mode.fails
  fresh : ∀ v ∈ vs, v = .fresh
  returns : d0.zones[z].mode = .hold → vs ≠ [] ∧ d0.holdDemand z = false

/-- The zone `z` of `d0` while its channel goes to `x'`: its arrival waits, its channel's return has been seen or is still to be seen; or it has
taken its arrival. -/
structure ZoneFollows (μ : Byte) (d0 : Device) (z : Fin 12) (x' : Channel) (vs : List Validity) (d : Device) (ts : List Job) : Prop where
  calm : d.Calm μ
  terms : d.terms = d0.terms
  state : d.monitor.state = d0.monitor.state
  active : d.profile.active = d0.profile.active
  channel : ChannelFollows d0.zones[z].measChannel d0.channels[d0.zones[z].measChannel] x' vs d (ts.filter (Job.atChannel d0.zones[z].measChannel))
  sees : ∀ v, Job.zoneValidity z v ∈ ts → v = .fresh
  phase : (ts.count (.zoneArrival z) = 1 ∧ (d.zones[z] = d0.zones[z].seesFresh
        ∨ (d.zones[z] = d0.zones[z] ∧ d0.zones[z].mode = .hold
          ∧ (ts.filter (Job.atChannel d0.zones[z].measChannel) ≠ [] ∨ Job.zoneValidity z .fresh ∈ ts))))
    ∨ (Job.zoneArrival z ∉ ts ∧ d.zones[z] = d0.zones[z].seesFresh.arrived (zoneKind z) (d.updateFrom z d0.zones[z].measChannel)
      ∧ ((∀ w ∈ ts, w.beforeArrival z = false) ∨ (d0.zones[z].seesFresh.mode ≠ .preheat ∧ d0.zones[z].seesFresh.mode ≠ .track)))

section
variable {μ : Byte} {d0 : Device} {z : Fin 12} {x' : Channel} {vs : List Validity}

theorem ZoneFollows.measChannel {d : Device} {ts : List Job} (h : ZoneFollows μ d0 z x' vs d ts) :
    d.zones[z].measChannel = d0.zones[z].measChannel := by
  rcases h.phase with ⟨-, hz | ⟨hz, -⟩⟩ | ⟨-, hz, -⟩
  · rw [hz, Zone.seesFresh_measChannel]
  · rw [hz]
  · rw [hz, Zone.arrived_measChannel, Zone.seesFresh_measChannel]

/-- Whatever the phase, the zone sees its channel return with its hold demand down. -/
theorem ZoneFollows.demand {d : Device} {ts : List Job} (hs : d0.TakesSample z vs) (h : ZoneFollows μ d0 z x' vs d ts) (hm : d0.zones[z].mode = .hold) :
    d.holdDemand z = false := by
  rw [Device.holdDemand_congr h.terms]
  exact (hs.returns hm).2

/-- What a good completion's event hands on moves no zone's arrival and, but for a change of its channel, no zone's record. -/
theorem OfGoodCompletion.handedOn_zone {d : Device} (hd : d.Calm μ) {ws : List Job} {j x : Job} {m : TermSet} (h : OfGoodCompletion μ j)
    (hx : x ∈ handedOn d (act ws d j) m) : x ≠ .zoneArrival z ∧ (j.ofChannel = false → x.beforeArrival z = false) := by
  rcases h.mem_handedOn hd hx with hx | ⟨s, r, rfl⟩
  · cases hx with
    | tick | sample | loss | validity => exact ⟨by simp, fun hc => by cases hc⟩
    | request | cascade => exact ⟨by simp, fun _ => rfl⟩
    | zonesBreak j hj | trigger j hj => rw [h.plain.2.2.1] at hj; cases hj
  · exact ⟨by simp, fun _ => rfl⟩

/-- An event that is none of the zone's, while its arrival waits. -/
theorem ZoneFollows.waits {d : Device} {ws hs : List Job} {j : Job} {d' : Device}
    (hz : d'.zones[z] = d.zones[z]) (hj : j ≠ .zoneArrival z) (hv : ∀ v, j ≠ .zoneValidity z v) (hs' : ∀ x ∈ hs, x ≠ .zoneArrival z)
    (hchannel : (j :: ws).filter (Job.atChannel d0.zones[z].measChannel) ≠ [] → d0.zones[z].mode = .hold →
      (ws ++ hs).filter (Job.atChannel d0.zones[z].measChannel) ≠ [] ∨ Job.zoneValidity z .fresh ∈ hs)
    (h : (j :: ws).count (.zoneArrival z) = 1 ∧ (d.zones[z] = d0.zones[z].seesFresh
        ∨ (d.zones[z] = d0.zones[z] ∧ d0.zones[z].mode = .hold
          ∧ ((j :: ws).filter (Job.atChannel d0.zones[z].measChannel) ≠ [] ∨ Job.zoneValidity z .fresh ∈ j :: ws)))) :
    (ws ++ hs).count (.zoneArrival z) = 1 ∧ (d'.zones[z] = d0.zones[z].seesFresh
        ∨ (d'.zones[z] = d0.zones[z] ∧ d0.zones[z].mode = .hold
          ∧ ((ws ++ hs).filter (Job.atChannel d0.zones[z].measChannel) ≠ [] ∨ Job.zoneValidity z .fresh ∈ ws ++ hs))) := by
  obtain ⟨hone, hphase⟩ := h
  rw [List.count_cons_of_ne hj] at hone
  have hnone : hs.count (.zoneArrival z) = 0 := List.count_eq_zero.mpr fun hm => hs' _ hm rfl
  refine ⟨by rw [List.count_append, hone, hnone], ?_⟩
  rw [hz]
  refine hphase.imp_right fun ⟨hy, hm, hw⟩ => ⟨hy, hm, ?_⟩
  rcases hw with hw | hw
  · exact (hchannel hw hm).imp_right fun hx => List.mem_append_right _ hx
  · rcases List.mem_cons.mp hw with he | hw
    · exact absurd he.symm (hv _)
    · exact .inr (List.mem_append_left _ hw)

/-- An event that is none of the zone's, after its arrival. -/
theorem ZoneFollows.arrived {d d' : Device} {ws hs : List Job} {j : Job} (hz : d'.zones[z] = d.zones[z]) (hs' : ∀ x ∈ hs, x ≠ .zoneArrival z)
    (hbefore : j.beforeArrival z = false → (∀ x ∈ hs, x.beforeArrival z = false)
      ∧ d'.updateFrom z d0.zones[z].measChannel = d.updateFrom z d0.zones[z].measChannel)
    (h : Job.zoneArrival z ∉ j :: ws ∧ d.zones[z] = d0.zones[z].seesFresh.arrived (zoneKind z) (d.updateFrom z d0.zones[z].measChannel)
      ∧ ((∀ w ∈ j :: ws, w.beforeArrival z = false) ∨ (d0.zones[z].seesFresh.mode ≠ .preheat ∧ d0.zones[z].seesFresh.mode ≠ .track))) :
    Job.zoneArrival z ∉ ws ++ hs ∧ d'.zones[z] = d0.zones[z].seesFresh.arrived (zoneKind z) (d'.updateFrom z d0.zones[z].measChannel)
      ∧ ((∀ w ∈ ws ++ hs, w.beforeArrival z = false) ∨ (d0.zones[z].seesFresh.mode ≠ .preheat ∧ d0.zones[z].seesFresh.mode ≠ .track)) := by
  obtain ⟨hnone, hrecord, hw⟩ := h
  have hnone' : Job.zoneArrival z ∉ ws ++ hs := fun hm => (List.mem_append.mp hm).elim (fun h => hnone (List.mem_cons_of_mem _ h)) fun h => hs' _ h rfl
  rw [hz]
  rcases hw with hw | ⟨hp, ht⟩
  · obtain ⟨hhs, hu⟩ := hbefore (hw j List.mem_cons_self)
    rw [hu]
    exact ⟨hnone', hrecord, .inl fun w hm => (List.mem_append.mp hm).elim (fun h => hw w (List.mem_cons_of_mem _ h)) (hhs w)⟩
  · rw [Zone.arrived_stands hp ht] at hrecord ⊢
    exact ⟨hnone', hrecord, .inr ⟨hp, ht⟩⟩

/-- The zone takes its arrival. -/
theorem ZoneFollows.arrival {d : Device} {as ws : List Job} {m : TermSet}
    (hturn : d.zones[z].settledMode = true ∨ ∀ w ∈ ws, w.beforeArrival z = false) (h : ZoneFollows μ d0 z x' vs d (.zoneArrival z :: ws)) :
    Job.zoneArrival z ∉ ws
      ∧ (settled d (act as d (.zoneArrival z)) m).zones[z] = d0.zones[z].seesFresh.arrived (zoneKind z) (d.updateFrom z d0.zones[z].measChannel)
      ∧ ((∀ w ∈ ws, w.beforeArrival z = false) ∨ (d0.zones[z].seesFresh.mode ≠ .preheat ∧ d0.zones[z].seesFresh.mode ≠ .track)) := by
  have hrecord : (settled d (act as d (.zoneArrival z)) m).zones[z] = d.zones[z].arrived (zoneKind z) (d.updateFrom z d0.zones[z].measChannel) := by
    obtain ⟨_, _, _, _, he⟩ := settled_frame d (act as d (.zoneArrival z)) m
    rw [he, ← Device.updateInput_eq h.measChannel]
    exact d.zoneArrival_record z
  rcases h.phase with ⟨hone, hphase⟩ | ⟨hnone, -⟩
  · rw [List.count_cons_self] at hone
    have hy : d.zones[z] = d0.zones[z].seesFresh := by
      rcases hphase with hy | ⟨hy, hm, hw⟩
      · exact hy
      · rcases hturn with hq | hb
        · rw [hy] at hq
          exact absurd hm (Zone.mode_of_settledMode hq).2.2
        · exfalso
          rcases hw with hw | hw
          · refine hw ?_
            rw [List.filter_cons_of_neg (by simp [Job.atChannel])]
            exact filter_atChannel_none (fun w hm => (Bool.or_eq_false_iff.mp (Bool.or_eq_false_iff.mp (hb w hm)).1).1) _
          · have := hb _ ((List.mem_cons.mp hw).resolve_left (by simp))
            simp [Job.beforeArrival, Job.block, Job.ofChannel, Job.ofTracker] at this
    rw [hrecord, hy]
    refine ⟨List.count_eq_zero.mp (by omega), rfl, hturn.symm.imp_right fun hq => ?_⟩
    rw [hy] at hq
    exact ⟨(Zone.mode_of_settledMode hq).1, (Zone.mode_of_settledMode hq).2.1⟩
  · exact absurd List.mem_cons_self hnone

/-- The zone sees its channel return. -/
theorem ZoneFollows.seesReturn {d : Device} {as ws : List Job} {m : TermSet} (hs : d0.TakesSample z vs) (hdem : d.demandSeen as z = d.holdDemand z)
    (h : ZoneFollows μ d0 z x' vs d (.zoneValidity z .fresh :: ws)) :
    (ws.count (.zoneArrival z) = 1 ∧ (settled d (act as d (.zoneValidity z .fresh)) m).zones[z] = d0.zones[z].seesFresh)
      ∨ (Job.zoneArrival z ∉ ws ∧ (settled d (act as d (.zoneValidity z .fresh)) m).zones[z] = d.zones[z]
        ∧ d.zones[z] = d0.zones[z].seesFresh
        ∧ (d0.zones[z].seesFresh.mode ≠ .preheat ∧ d0.zones[z].seesFresh.mode ≠ .track)) := by
  have hold : d0.zones[z].seesFresh.mode = .hold → d0.zones[z].mode = .hold := fun hm => by
    by_contra hn
    rw [Zone.seesFresh_other hn] at hm
    exact hn hm
  have hrecord : (d.zones[z].mode = .hold → d0.zones[z].mode = .hold) →
      (settled d (act as d (.zoneValidity z .fresh)) m).zones[z] = d.zones[z].seesFresh := fun hm => by
    obtain ⟨_, _, _, _, he⟩ := settled_frame d (act as d (.zoneValidity z .fresh)) m
    rw [he]
    exact Device.zoneSeesValidity_returns fun hh => hdem.trans (h.demand hs (hm hh))
  rcases h.phase with ⟨hone, hphase⟩ | ⟨hnone, hz, hw⟩
  · rw [List.count_cons_of_ne (by simp)] at hone
    refine .inl ⟨hone, ?_⟩
    rcases hphase with hy | ⟨hy, -⟩
    · rw [hrecord (by rw [hy]; exact hold), hy, Zone.seesFresh_twice]
    · rw [hrecord (by rw [hy]; exact id), hy]
  · rcases hw with hw | ⟨hp, ht⟩
    · have := hw _ List.mem_cons_self
      simp [Job.beforeArrival, Job.block, Job.ofChannel, Job.ofTracker] at this
    · rw [Zone.arrived_stands hp ht] at hz
      refine .inr ⟨fun hm => hnone (List.mem_cons_of_mem _ hm), ?_, hz, hp, ht⟩
      rw [hrecord (by rw [hz]; exact hold), hz, Zone.seesFresh_twice]

end

end Sys2Proof.Machine

/-! The zones through a good completion (O13). -/

namespace Sys2Proof.Machine

theorem Device.demandSeen_eq {d : Device} {ws : List Job} (h : ∀ w ∈ ws, ∀ y b, w ≠ .zoneDemand y b) (z : Fin 12) :
    d.demandSeen ws z = d.holdDemand z := by
  unfold Device.demandSeen
  split
  · next b hb =>
    obtain ⟨w, hw, hwb⟩ := List.exists_of_findSome?_eq_some hb
    cases w
    case zoneDemand y b' => exact absurd rfl (h _ hw y b')
    all_goals cases hwb
  · rfl

/-- R138: only a Monitor event moves the Monitor's state. -/
theorem OfGoodCompletion.monitor_state {μ : Byte} {j : Job} (h : OfGoodCompletion μ j) (ws : List Job) (d : Device) (m : TermSet) :
    (settled d (act ws d j) m).monitor.state = d.monitor.state := by
  cases h
  case breakWord w _ =>
    obtain ⟨_, _, _, _, he⟩ := settled_frame d (act ws d (.breakWord w)) m
    rw [he]
    rfl
  all_goals rw [(settled_act_spares ws d _ m).monitor rfl]

section
variable {μ : Byte} {d0 : Device} {z : Fin 12} {x' : Channel} {vs : List Validity}

/-- What a zone's update reads stands through an event that comes before no arrival. -/
theorem OfGoodCompletion.updateFrom {j : Job} (h : OfGoodCompletion μ j) (hb : j.ofChannel = false ∧ j.ofTracker = false) (ws : List Job) (d : Device)
    (m : TermSet) (c : Fin 32) : (settled d (act ws d j) m).updateFrom z c = d.updateFrom z c := by
  have hs := settled_act_spares ws d j m
  have hc : j.movesChannels = false := by
    cases j
    case channelChange => cases hb.1
    all_goals rfl
  exact Device.updateFrom_congr (hs.channels hc) (hs.speed hb.2) (h.monitor_state ws d m) hs.active z c

/-- The change of the zone's channel is seen at the zone. -/
theorem ZoneFollows.change {d : Device} {as ws : List Job} {j : Job} {x : Channel} {us : List Validity} {m : TermSet}
    (hj : j = .channelChange d0.zones[z].measChannel x us) (h : ZoneFollows μ d0 z x' vs d (j :: ws)) (v : Validity) :
    Job.zoneValidity z v ∈ handedOn d (act as d j) m ↔ v ∈ vs := by
  rw [hj] at h ⊢
  have hc := h.channel
  rw [List.filter_cons_of_pos (by simp [Job.atChannel])] at hc
  have hus : us = vs := by
    rcases hc with ⟨r, hr, hb, -⟩ | ⟨hr, -⟩ | ⟨hr, -⟩
    · rw [← (List.cons.inj hr).1] at hb
      cases hb.announces
    · exact (Job.channelChange.inj (List.cons.inj hr).1).2.2
    · cases hr
  have hnext := seenBy_handedOn as d (.channelChange d0.zones[z].measChannel x us) m z
  rw [← h.measChannel, channelChange_seenBy, hus] at hnext
  rw [← h.measChannel, hus]
  constructor
  · intro hv
    have := List.mem_filter.mpr ⟨hv, show (Job.zoneValidity z v).seenBy z = true by simp [Job.seenBy, Job.block]⟩
    rw [hnext] at this
    obtain ⟨u, hu, he⟩ := List.mem_map.mp this
    exact (Job.zoneValidity.inj he).2 ▸ hu
  · intro hv
    have := List.mem_map_of_mem (f := Job.zoneValidity z) hv
    rw [← hnext] at this
    exact (List.mem_filter.mp this).1

theorem notMem_append {ws hs : List Job} {x : Job} (h : x ∉ ws) (hn : ∀ y ∈ hs, y ≠ x) : x ∉ ws ++ hs := fun hm =>
  (List.mem_append.mp hm).elim h fun hm => hn x hm rfl

/-- What is not the zone's arrival nor a validity that it sees is not the zone's. -/
theorem OfGoodCompletion.movesZone {j : Job} (h : OfGoodCompletion μ j) (ha : j ≠ .zoneArrival z) (hv : ¬∃ v, j = .zoneValidity z v) :
    j.movesZone z = false := by
  cases h
  case arrival y =>
    have hy : y ≠ z := fun he => ha (by rw [he])
    simp [Job.movesZone, Job.block, Block.zone, hy]
  case validity y v =>
    have hy : y ≠ z := fun he => hv ⟨v, by rw [he]⟩
    simp [Job.movesZone, Job.block, Block.zone, hy]
  all_goals rfl

/-- The change of its channel that the zone's arrival waits for, or the return of the channel, still waits after an event that is none of the zone's. -/
theorem ZoneFollows.stillWaits {d : Device} {as ws : List Job} {j : Job} {n : Nat} {m : TermSet} (hs : d0.TakesSample z vs) (hn : j.follow ≤ n)
    (h : ZoneFollows μ d0 z x' vs d (j :: ws)) (hw : (j :: ws).filter (Job.atChannel d0.zones[z].measChannel) ≠ []) (hm : d0.zones[z].mode = .hold) :
    (ws ++ if n = 0 then [] else (handedOn d (act as d j) m).filter Job.notCommand).filter (Job.atChannel d0.zones[z].measChannel) ≠ []
      ∨ Job.zoneValidity z .fresh ∈ if n = 0 then [] else (handedOn d (act as d j) m).filter Job.notCommand := by
  by_cases hchange : ∀ y us, j ≠ .channelChange d0.zones[z].measChannel y us
  · left
    rw [filter_ite_append, filter_notCommand rfl]
    exact fun he => hw ((waits_at_channel (us := as) hn hchange h.channel).mp he)
  · simp only [not_forall, not_not] at hchange
    obtain ⟨y, us, hj⟩ := hchange
    right
    rw [if_neg (by rintro rfl; rw [hj] at hn; cases hn)]
    obtain ⟨v, hv⟩ := List.exists_mem_of_ne_nil vs (hs.returns hm).1
    rw [hs.fresh v hv] at hv
    exact List.mem_filter.mpr ⟨(h.change hj .fresh).mpr hv, by simp [Job.notCommand]⟩

/-- A zone's validity that an event hands on is one that its channel has come through. -/
theorem ZoneFollows.handsOnFresh {d : Device} {as ws : List Job} {j : Job} {m : TermSet} (hs : d0.TakesSample z vs) (hj : OfGoodCompletion μ j)
    (h : ZoneFollows μ d0 z x' vs d (j :: ws)) {v : Validity} (hv : Job.zoneValidity z v ∈ handedOn d (act as d j) m) : v = .fresh := by
  rcases hj.mem_handedOn h.calm hv with hx | ⟨s, r, hx⟩
  · cases hx with
    | validity c x us _ _ _ hz =>
      rw [h.measChannel] at hz
      subst hz
      exact hs.fresh v ((h.change rfl v).mp hv)
  · cases hx

theorem zone_tracks (hs : d0.TakesSample z vs) :
    Tracks (fun j n => OfGoodCompletion μ j ∧ j.follow ≤ n) Job.notCommand id (ZoneFollows μ d0 z x' vs) where
  perm {d ts ts'} hp h := { h with
    channel := (channel_tracks _ _ x' vs).perm (hp.filter _) h.channel
    sees := fun v hv => h.sees v (hp.mem_iff.mpr hv)
    phase := by
      have hf : ts'.filter (Job.atChannel d0.zones[z].measChannel) = [] ↔ _ := perm_nil_iff (hp.filter _)
      rw [← hp.count_eq, ne_eq, hf, ← hp.mem_iff, ← hp.mem_iff]
      exact h.phase.imp_right fun ⟨hn, hz, hw⟩ => ⟨hn, hz, hw.imp_left fun hw w hm => hw w (hp.mem_iff.mpr hm)⟩ }
  choices o h := { h with calm := h.calm.choices o }
  act {ws d j n m} hj hcmd hws hturn h := by
    obtain ⟨hj, hn⟩ := hj
    have hspares := settled_act_spares ws d j m
    have hchannel := (channel_tracks d0.zones[z].measChannel d0.channels[d0.zones[z].measChannel] x' vs).act (m := m) ⟨hcmd, hn⟩ hcmd
      (fun w hw => (hws w hw).imp_right fun ⟨n, ho, hf⟩ => ⟨n, ho.plain.2.2.2, hf⟩) hturn (by rw [← filter_notCommand rfl]; exact h.channel)
    rw [List.filter_cons_of_pos (p := Job.notCommand) (bne_iff_ne.mpr hcmd)] at h
    have hin : ∀ x ∈ (if n = 0 then [] else (handedOn d (act ws d j) m).filter Job.notCommand), x ∈ handedOn d (act ws d j) m := fun x hx => by
      split at hx
      · cases hx
      · exact (List.mem_filter.mp hx).1
    have hnone : ∀ x ∈ (if n = 0 then [] else (handedOn d (act ws d j) m).filter Job.notCommand), x ≠ .zoneArrival z := fun x hx =>
      (hj.handedOn_zone h.calm (hin x hx)).1
    refine ⟨h.calm.kept hj.plain.1 m, (h.calm.unread.settled_terms ws hj.plain.1 m).trans h.terms, (hj.monitor_state ws d m).trans h.state,
      hspares.active.trans h.active, by rw [filter_notCommand_append rfl]; exact hchannel, fun v hv => ?_, ?_⟩
    · rcases List.mem_append.mp hv with hv | hv
      · exact h.sees v (List.mem_cons_of_mem _ hv)
      · exact h.handsOnFresh hs hj (hin _ hv)
    · by_cases harrival : j = .zoneArrival z
      · subst harrival
        have hturn' : d.zones[z].settledMode = true ∨ ∀ w ∈ ws.filter Job.notCommand, w.beforeArrival z = false :=
          hturn.precedes.imp (fun hq => by simpa only [Bool.or_false] using (show (d.zones[z].settledMode || false) = true from hq))
            fun hq w hw => Job.beforeArrival_of_precedes (hq w (List.mem_filter.mp hw).1)
        obtain ⟨hno, hrecord, hbefore⟩ := h.arrival (as := ws) (m := m) hturn'
        right
        rw [hj.updateFrom ⟨rfl, rfl⟩ ws d m]
        refine ⟨notMem_append hno hnone, hrecord, hbefore.imp_left fun hb w hw => ?_⟩
        exact (List.mem_append.mp hw).elim (hb w) fun hw => (hj.handedOn_zone h.calm (hin w hw)).2 rfl
      by_cases hvalidity : ∃ v, j = .zoneValidity z v
      · obtain ⟨v, rfl⟩ := hvalidity
        obtain rfl := h.sees v List.mem_cons_self
        have hdemand : ∀ w ∈ ws, ∀ y b, w ≠ .zoneDemand y b := fun w hw y b he => by
          rcases hws w hw with hc | ⟨n, ho, -⟩
          · rw [hc] at he; cases he
          · rw [he] at ho; cases ho
        rcases h.seesReturn (as := ws) (m := m) hs (Device.demandSeen_eq hdemand z) with ⟨hone, hz⟩ | ⟨hno, hz, hy, hp, ht⟩
        · exact .inl ⟨by rw [List.count_append, hone, List.count_eq_zero.mpr fun hm => hnone _ hm rfl], .inl hz⟩
        · refine .inr ⟨notMem_append hno hnone, ?_, .inr ⟨hp, ht⟩⟩
          rw [hz, hy, Zone.arrived_stands hp ht]
      · have hz : (settled d (act ws d j) m).zones[z] = d.zones[z] := event_zone ws d (hj.movesZone harrival hvalidity) m
        exact h.phase.imp
          (ZoneFollows.waits hz harrival (fun v he => hvalidity ⟨v, he⟩) hnone fun hw hm => h.stillWaits hs hn hw hm)
          (ZoneFollows.arrived hz hnone fun hb => by
            obtain ⟨hb, -⟩ := Bool.or_eq_false_iff.mp hb
            obtain ⟨hc, ht⟩ := Bool.or_eq_false_iff.mp hb
            exact ⟨fun x hx => (hj.handedOn_zone h.calm (hin x hx)).2 hc, hj.updateFrom ⟨hc, ht⟩ ws d m _⟩)
  handsOn hj hcmd _ h x hx := by
    rw [List.filter_cons_of_pos (p := Job.notCommand) (bne_iff_ne.mpr hcmd)] at h
    exact ⟨hj.1.handsOn h.calm hx, follow_handedOn hj.2 hx⟩
  command h := absurd rfl h.1.plain.2.2.2

end

end Sys2Proof.Machine

/-! The deliveries of a good completion, followed together (O13). -/

namespace Sys2Proof.Machine

/-! ## What comes to each block -/

theorem Device.goodRoots_breakWord (d : Device) (s : Staging) (command : Option (Byte × Cmd)) :
    (d.goodRoots s command).filter (fun j => j.block == .breakWord) = s.breakWord.toList.map Job.breakWord := by
  have hword : (s.breakWord.toList.map Job.breakWord).filter (fun j => j.block == .breakWord) = s.breakWord.toList.map Job.breakWord :=
    List.filter_eq_self.mpr fun x hx => by obtain ⟨w, -, rfl⟩ := List.mem_map.mp hx; rfl
  rw [d.goodRoots_filter, filter_map_none (fun _ => rfl), filter_ite_none rfl, filter_map_none (fun _ => rfl), filter_map_none (fun _ => rfl),
    hword, Device.cycleRoots_filter_none (fun _ => rfl), Device.recordRoots_filter_none rfl, filter_ite_none rfl]
  simp [Job.block]

theorem Device.goodRoots_tracker (d : Device) (s : Staging) (command : Option (Byte × Cmd)) :
    (d.goodRoots s command).filter Job.ofTracker = if s.arrives d.speed.speedChannel then [.speedSample] else [] := by
  rw [d.goodRoots_filter, filter_map_none (fun _ => rfl), filter_map_none (fun _ => rfl), filter_map_none (fun _ => rfl),
    filter_map_none (fun _ => rfl), Device.cycleRoots_filter_none (fun _ => rfl), Device.recordRoots_filter_none rfl, filter_ite_none (j := .command) rfl]
  split <;> simp [Job.ofTracker]

theorem Device.goodRoots_arrival (d : Device) (s : Staging) (command : Option (Byte × Cmd)) (z : Fin 12) :
    (d.goodRoots s command).count (.zoneArrival z) = if s.arrives d.zones[z].measChannel then 1 else 0 := by
  rw [List.count_eq_length_filter, d.goodRoots_filter, filter_map_none (fun _ => by simp), filter_ite_none (by simp),
    filter_map_one (a := z) (fun i => by by_cases h : i = z <;> simp [h]), filter_map_none (fun _ => by simp), filter_map_none (fun _ => by simp),
    Device.cycleRoots_filter_none (fun _ => by simp), Device.recordRoots_filter_none (by simp), filter_ite_none (by simp)]
  cases s.arrives d.zones[z].measChannel <;> simp

/-! ## Together -/

/-- Terms and timers read only constants, the break word speaks to no member group, and the control word brings no new request. -/
structure Device.NothingElse (d : Device) (s : Staging) : Prop where
  unread : d.Unread
  breakWord : ∀ w, s.breakWord = some w → (highByte w ||| lowByte w) &&& d.monitor.membership = 0
  request : ∀ w, s.control = some w → w.getLsbD 1 = true → d.capture.lastRequest = true

/-- The zone's channel has a sample staged, and the zone is to update with it. -/
structure Device.Updates (d : Device) (s : Staging) (z : Fin 12) : Prop where
  arrives : s.arrives d.zones[z].measChannel = true
  takes : d.TakesSample z (s.sampledValidities d.zones[z].measChannel d.channels[d.zones[z].measChannel])

/-- Every block of `d0` that a good frame `s` delivers to, while `ts` waits. -/
def DeliveryFollows (d0 : Device) (s : Staging) (d : Device) (ts : List Job) : Prop :=
  LinkFollows .linkGood d0 d (ts.filter Job.movesLink)
    ∧ (∀ c : Fin 32, ChannelFollows c d0.channels[c] (s.sampled c d0.channels[c]) (s.sampledValidities c d0.channels[c]) d (ts.filter (Job.atChannel c)))
    ∧ SpeedFollows d0 d0.channels[d0.speed.speedChannel] (s.sampled d0.speed.speedChannel d0.channels[d0.speed.speedChannel])
        (s.sampledValidities d0.speed.speedChannel d0.channels[d0.speed.speedChannel]) (s.arrives d0.speed.speedChannel) d
        (ts.filter (Job.atChannel d0.speed.speedChannel)) (ts.filter Job.ofTracker)
    ∧ Once (s.control.map Job.controlWord) (fun d => (d.port.permitRequest, d.port.triggerRequest)) (d0.port.permitRequest, d0.port.triggerRequest)
        (s.control.elim (d0.port.permitRequest, d0.port.triggerRequest) fun w => (w.getLsbD 0, w.getLsbD 1)) d (ts.filter fun j => j.block == .control)
    ∧ Once (s.breakWord.map Job.breakWord) (fun d => (d.monitor.lastNotice, d.monitor.lastAssert)) (d0.monitor.lastNotice, d0.monitor.lastAssert)
        (s.breakWord.elim (d0.monitor.lastNotice, d0.monitor.lastAssert) fun w => (highByte w, lowByte w)) d (ts.filter fun j => j.block == .breakWord)
    ∧ (d.port.frame = d0.port.frame ∧ (d0.mailbox.executing = none → d.mailbox = d0.mailbox))
    ∧ ∀ z : Fin 12, d0.NothingElse s ∧ d0.Updates s z → ZoneFollows d0.monitor.membership d0 z
        (s.sampled d0.zones[z].measChannel d0.channels[d0.zones[z].measChannel])
        (s.sampledValidities d0.zones[z].measChannel d0.channels[d0.zones[z].measChannel]) d ts

/-- The events of a good completion: their changes are announced, and where nothing else waits they are those of a calm moment. -/
def Device.DeliveryJob (d0 : Device) (s : Staging) (j : Job) (n : Nat) : Prop :=
  j ≠ .command ∧ (Fin 32 → j ≠ .command ∧ j.follow ≤ n) ∧ (j ≠ .command ∧ j.follow ≤ n) ∧ True ∧ True ∧ True
    ∧ ∀ z : Fin 12, d0.NothingElse s ∧ d0.Updates s z → OfGoodCompletion d0.monitor.membership j ∧ j.follow ≤ n

theorem control_tracks (d0 : Device) (s : Staging) : Tracks (fun _ _ => True) (fun j => j.block == .control) id
    (Once (s.control.map Job.controlWord) (fun d => (d.port.permitRequest, d.port.triggerRequest)) (d0.port.permitRequest, d0.port.triggerRequest)
      (s.control.elim (d0.port.permitRequest, d0.port.triggerRequest) fun w => (w.getLsbD 0, w.getLsbD 1))) :=
  once_tracks _ (fun j hj => by cases j <;> first | rfl | cases hj) (fun _ _ => rfl)
    (fun ws d j m hj => by
      have hs := settled_act_spares ws d j m
      have hc : j.movesControl = false := by
        cases j
        case controlWord => cases hj
        all_goals rfl
      rw [hs.permitRequest hc, hs.triggerRequest hc])
    (fun ws d m j hj _ => by
      obtain ⟨w, hw, rfl⟩ := Option.map_eq_some_iff.mp hj
      obtain ⟨_, _, _, _, he⟩ := settled_frame d (act ws d (.controlWord w)) m
      rw [hw, he]
      rfl) rfl

theorem breakWord_tracks (d0 : Device) (s : Staging) : Tracks (fun _ _ => True) (fun j => j.block == .breakWord) id
    (Once (s.breakWord.map Job.breakWord) (fun d => (d.monitor.lastNotice, d.monitor.lastAssert)) (d0.monitor.lastNotice, d0.monitor.lastAssert)
      (s.breakWord.elim (d0.monitor.lastNotice, d0.monitor.lastAssert) fun w => (highByte w, lowByte w))) :=
  once_tracks _ (fun j hj => by cases j <;> first | rfl | cases hj) (fun _ _ => rfl)
    (fun ws d j m hj => by
      have hs := settled_sources ws d (j := j) m fun w he => by rw [he] at hj; cases hj
      rw [hs.notice, hs.assertion])
    (fun ws d m j hj _ => by
      obtain ⟨w, hw, rfl⟩ := Option.map_eq_some_iff.mp hj
      obtain ⟨_, _, _, _, he⟩ := settled_frame d (act ws d (.breakWord w)) m
      rw [hw, he]
      rfl) rfl

/-- The frame has been closed, and no event of the moment opens it; an idle Mailbox stays as it is. -/
theorem standing_kept (d0 : Device) : KeptByEvent
    (fun d => d.port.frame = d0.port.frame ∧ (d0.mailbox.executing = none → d.mailbox = d0.mailbox)) fun _ => True where
  choose d n h := by
    obtain ⟨o, ho⟩ := d.choose_dev n
    rw [ho]
    exact h
  act ws d j m h _ := ⟨(settled_act_spares ws d j m).frame.trans h.1, fun hi => by
    rw [event_mailbox ws (by rw [h.2 hi]; exact hi) j m, h.2 hi]⟩
  handsOn _ _ _ _ _ _ _ _ := trivial

/-- A sample that is not the fault code brings its channel from FRESH through no validity. -/
theorem Staging.sampledValidities_arrives {s : Staging} {c : Fin 32} {x : Channel} (h : s.arrives c = true) :
    ¬(x.validity = .fresh ∧ s.sampledValidities c x ≠ []) := by
  rintro ⟨hx, hne⟩
  refine hne ?_
  unfold Staging.arrives at h
  unfold Staging.sampledValidities
  cases hi : s.inputs[c] with
  | none => rfl
  | some w =>
    rw [hi] at h
    exact (sampleValidities_fresh x (bne_iff_ne.mp h)).trans (if_pos hx)

theorem delivery_tracks (d0 : Device) (s : Staging) : Tracks (d0.DeliveryJob s) Job.notCommand id (DeliveryFollows d0 s) :=
  ((link_tracks rfl d0).wide rfl).and (.and (.all (fun c => (channel_tracks c _ _ _).wide rfl) rfl)
    (.and (speed_tracks Staging.sampledValidities_arrives) (.and ((control_tracks d0 s).wide rfl) (.and ((breakWord_tracks d0 s).wide rfl)
      (.and ((standing_kept d0).tracks fun _ _ h => h) (.all (fun _ => .given (fun h => zone_tracks h.2.takes) rfl) rfl) rfl) rfl) rfl) rfl) rfl) rfl

end Sys2Proof.Machine

/-! What the deliveries of a good completion leave (O13). -/

namespace Sys2Proof.Machine

/-- What may still wait when the command is taken, or when all is done: the clocks from outside and the recording. -/
def Job.besideCommand : Job → Bool
  | .timerClock _ source => source != .cascade
  | .captureRecord _ => true
  | _ => false

theorem Job.besideCommand_of_precedes {d : Device} {a : Job} (hc : a ≠ .command) (h : a.precedes d .command = false) : a.besideCommand = true := by
  have h2 := (Bool.or_eq_false_iff.mp h).2
  cases a
  case timerClock k source => exact bne_iff_ne.mpr (beq_eq_false_iff_ne.mp h2)
  case captureRecord => rfl
  case command => exact absurd rfl hc
  all_goals cases h2

theorem filter_besideCommand {tok : Job → Bool} (ht : ∀ j, tok j = true → j.besideCommand = false) {ts : List Job}
    (h : ∀ w ∈ ts, w.besideCommand = true) : ts.filter tok = [] :=
  List.filter_eq_nil_iff.mpr fun w hw hk => by cases (h w hw).symm.trans (ht w hk)

/-! ## The start -/

theorem Staging.arrives_iff {s : Staging} {c : Fin 32} : s.arrives c = true ↔ ∃ w, s.inputs[c] = some w ∧ w ≠ sensorFault := by
  unfold Staging.arrives
  cases s.inputs[c] with
  | none => simp
  | some w => simp

theorem Device.goodRoots_zone {d : Device} {s : Staging} (command : Option (Byte × Cmd)) {z : Fin 12} (hn : d.NothingElse s) (hz : d.Updates s z) :
    ZoneFollows d.monitor.membership d z (s.sampled d.zones[z].measChannel d.channels[d.zones[z].measChannel])
      (s.sampledValidities d.zones[z].measChannel d.channels[d.zones[z].measChannel]) d ((d.goodRoots s command).filter Job.notCommand) where
  calm := ⟨hn.unread, rfl⟩
  terms := rfl
  state := rfl
  active := rfl
  channel := by
    rw [filter_notCommand rfl]
    exact d.goodRoots_channelFollows s command _
  sees v hv := by
    rcases Device.mem_goodRoots (List.mem_filter.mp hv).1 with h | ⟨_, _, h, -⟩ | ⟨h, -⟩ | ⟨_, h, -⟩ | ⟨_, h, -⟩ | ⟨_, h, -⟩ | ⟨_, h⟩ | h | ⟨h, -⟩ <;> cases h
  phase := by
    refine .inl ⟨?_, ?_⟩
    · rw [List.count_filter (by simp [Job.notCommand]), d.goodRoots_arrival, if_pos hz.arrives]
    · by_cases hm : d.zones[z].mode = .hold
      · obtain ⟨w, hw, -⟩ := Staging.arrives_iff.mp hz.arrives
        refine .inr ⟨rfl, hm, .inl ?_⟩
        rw [filter_notCommand rfl, d.goodRoots_channel, hw]
        exact List.cons_ne_nil _ _
      · exact .inl (Zone.seesFresh_other hm).symm

/-- Before any event is taken, everything still waits. -/
theorem Device.goodRoots_delivery (d : Device) (s : Staging) (command : Option (Byte × Cmd)) :
    DeliveryFollows d s d ((d.goodRoots s command).filter Job.notCommand) := by
  refine ⟨?_, fun c => ?_, ⟨?_, rfl, ?_⟩, .inl ⟨?_, rfl⟩, .inl ⟨?_, rfl⟩, ⟨rfl, fun _ => rfl⟩, fun z ⟨hn, hz⟩ => Device.goodRoots_zone command hn hz⟩
  · rw [filter_notCommand rfl, d.goodRoots_link]
    exact .inl ⟨rfl, .refl d⟩
  · rw [filter_notCommand rfl]
    exact d.goodRoots_channelFollows s command c
  · rw [filter_notCommand rfl]
    exact d.goodRoots_channelFollows s command _
  · rw [filter_notCommand rfl, filter_notCommand rfl, d.goodRoots_tracker, d.goodRoots_channel]
    by_cases ha : s.arrives d.speed.speedChannel = true
    · rw [if_pos ha]
      exact .inl ⟨rfl, ha, rfl⟩
    · rw [if_neg ha]
      refine .inr (.inr ?_)
      cases hi : s.inputs[d.speed.speedChannel] with
      | some w => exact .inl ⟨rfl, by simpa using ha, List.cons_ne_nil _ _, rfl⟩
      | none =>
        refine .inr ⟨rfl, rfl, ?_⟩
        unfold Speed.follows Staging.sampledValidities
        rw [if_neg ha, hi]
        exact (if_neg fun h => h.2 rfl).symm
  · rw [filter_notCommand rfl, d.goodRoots_control]
    cases s.control <;> rfl
  · rw [filter_notCommand rfl, d.goodRoots_breakWord]
    cases s.breakWord <;> rfl

theorem Device.goodRoots_deliveryJob {d : Device} {s : Staging} {command : Option (Byte × Cmd)} {j : Job} (h : j ∈ d.goodRoots s command)
    (hc : j ≠ .command) : d.DeliveryJob s j Config.generations := by
  have hf := Device.goodRoots_follow h
  exact ⟨hc, fun _ => ⟨hc, hf⟩, ⟨hc, hf⟩, trivial, trivial, trivial, fun z ⟨hn, _⟩ => ⟨Device.goodRoots_ofGood hn.breakWord h hc, hf⟩⟩

/-! ## The end -/

/-- What the deliveries of the good frame `s` leave of `d0`. -/
structure Delivered (d0 : Device) (s : Staging) (d : Device) : Prop where
  link : ∃ e, LinkStands d0 e ∧ LinkStands e.linkGood d
  channels : ∀ c : Fin 32, d.channels[c] = s.sampled c d0.channels[c]
  speed : d.speed = d0.speed.follows d0.channels[d0.speed.speedChannel] (s.sampled d0.speed.speedChannel d0.channels[d0.speed.speedChannel])
    (s.sampledValidities d0.speed.speedChannel d0.channels[d0.speed.speedChannel]) (s.arrives d0.speed.speedChannel)
  control : (d.port.permitRequest, d.port.triggerRequest)
    = s.control.elim (d0.port.permitRequest, d0.port.triggerRequest) fun w => (w.getLsbD 0, w.getLsbD 1)
  breakWord : (d.monitor.lastNotice, d.monitor.lastAssert)
    = s.breakWord.elim (d0.monitor.lastNotice, d0.monitor.lastAssert) fun w => (highByte w, lowByte w)
  frame : d.port.frame = d0.port.frame
  mailbox : d0.mailbox.executing = none → d.mailbox = d0.mailbox
  zones : ∀ z : Fin 12, d0.NothingElse s → d0.Updates s z → d.zones[z] = d0.zones[z].seesFresh.arrived (zoneKind z)
    (({ d0 with channels := d.channels, speed := d.speed } : Device).updateFrom z d0.zones[z].measChannel)

theorem DeliveryFollows.delivered {d0 d : Device} {s : Staging} {ts : List Job} (h : DeliveryFollows d0 s d ts)
    (hts : ∀ w ∈ ts, w.besideCommand = true) : Delivered d0 s d := by
  obtain ⟨hlink, hchannels, hspeed, hcontrol, hword, ⟨hframe, hmailbox⟩, hzones⟩ := h
  have hone : ∀ c, ts.filter (Job.atChannel c) = [] := fun c => filter_besideCommand (fun j hj => by cases j <;> first | rfl | cases hj) hts
  have htracker : ts.filter Job.ofTracker = [] := filter_besideCommand (fun j hj => by cases j <;> first | rfl | cases hj) hts
  have read : ∀ {c : Fin 32} {x x' : Channel} {vs}, ChannelFollows c x x' vs d (ts.filter (Job.atChannel c)) → d.channels[c] = x' := fun hc => by
    rw [hone] at hc
    rcases hc with ⟨r, hr, -⟩ | ⟨hr, -⟩ | ⟨-, hx⟩
    · cases hr
    · cases hr
    · exact hx
  refine ⟨?_, fun c => read (hchannels c), ?_, ?_, ?_, hframe, hmailbox, fun z hn hz => ?_⟩
  · rw [filter_besideCommand (fun j hj => by cases j <;> first | rfl | cases hj) hts] at hlink
    rcases hlink with ⟨hr, -⟩ | ⟨-, h⟩
    · cases hr
    · exact h
  · have ht := hspeed.tracker
    rw [htracker, hone] at ht
    rcases ht with ⟨hr, -⟩ | ⟨hr, -⟩ | ⟨-, -, hc, -⟩ | ⟨-, -, h⟩
    · cases hr
    · cases hr
    · exact absurd rfl hc
    · exact h
  · rw [filter_besideCommand (fun j hj => by cases j <;> first | rfl | cases hj) hts] at hcontrol
    exact hcontrol.done fun hw => by rw [Option.map_eq_none_iff.mp hw]; rfl
  · rw [filter_besideCommand (fun j hj => by cases j <;> first | rfl | cases hj) hts] at hword
    exact hword.done fun hw => by rw [Option.map_eq_none_iff.mp hw]; rfl
  · have hf := hzones z ⟨hn, hz⟩
    rcases hf.phase with ⟨hc, -⟩ | ⟨-, hy, -⟩
    · have hin : Job.zoneArrival z ∈ ts := List.count_pos_iff.mp (by omega)
      cases hts _ hin
    · rw [hy]
      congr 1
      exact Device.updateFrom_congr (d' := d) (d := { d0 with channels := d.channels, speed := d.speed }) rfl rfl hf.state hf.active z _

/-! ## The link at a good completion -/

theorem Device.linkGood_port (d : Device) : d.linkGood.port = { d.port with badRun := 0, link := .locked } := by
  unfold Device.linkGood
  dsimp only
  split <;> rfl

/-- R19: what becomes of the link, and what is told of it. -/
theorem Delivered.locks {d0 d : Device} {s : Staging} (h : Delivered d0 s d) :
    d.port.cycleCount = d0.port.cycleCount ∧ d.port.link = .locked ∧ d.port.badRun = 0 ∧ d.port.timeoutCountdown = d0.port.timeoutCountdown
      ∧ (d0.port.link = .searching → d0.events.ToldAnySource d.events .linkLocked d.port.cycleCount 0)
      ∧ (d0.port.link = .lost → d0.events.ToldAnySource d.events .linkLocked d.port.cycleCount 1)
      ∧ (d0.port.link = .locked → d0.events.Silent d.events .linkLocked) := by
  obtain ⟨e, he, hd⟩ := h.link
  have hp := e.linkGood_port
  have hcount : d.port.cycleCount = d0.port.cycleCount := by rw [hd.cycleCount, hp, he.cycleCount]
  have told : ∀ v, e.linkGood.events = e.events.offer { kind := .linkLocked, source := BitVec.ofNat 8 0, stamp := e.port.cycleCount, value := v } →
      d0.events.ToldAnySource d.events .linkLocked d.port.cycleCount v := fun v hv => by
    refine EventQueue.Told.anySource (source := 0) (EventQueue.Told.grows ?_ hd.told)
    rw [hv, hcount, he.cycleCount]
    exact EventQueue.told_offer _ _ _ _ _ _ he.told.length_le
  refine ⟨hcount, by rw [hd.link, hp], by rw [hd.badRun, hp], by rw [hd.countdown, hp, he.countdown], fun hl => told 0 ?_, fun hl => told 1 ?_, fun hl => ?_⟩
  · unfold Device.linkGood
    rw [he.link, hl]
    rfl
  · unfold Device.linkGood
    rw [he.link, hl]
    rfl
  · have hev : e.linkGood.events = e.events := by
      unfold Device.linkGood
      rw [he.link, hl]
    have hne : ∀ r : EventRecord, r.kind.ofLink = false → r.kind ≠ .linkLocked := fun r hr h => by rw [h] at hr; cases hr
    refine EventQueue.Grows.silent (p := fun r => r.kind ≠ .linkLocked) ?_ fun _ h => h
    refine (he.told.mono hne).trans ?_
    rw [← hev]
    exact hd.told.mono hne

end Sys2Proof.Machine

/-! The deliveries in the words of the rules (O13). -/

namespace Sys2Proof.Machine

section
variable {s : Staging} {c : Fin 32} (x : Channel) (v : Speed)

/-- R45: no sample comes to the tracker's channel. -/
theorem Speed.follows_none (h : s.inputs[c] = none) : v.follows x (s.sampled c x) (s.sampledValidities c x) (s.arrives c) = v := by
  unfold Speed.follows Staging.sampledValidities Staging.arrives
  rw [h]
  rw [if_neg (by simp)]
  exact if_neg fun hl => hl.2 rfl

/-- R49: the fault code comes to it. -/
theorem Speed.follows_fault (h : s.inputs[c] = some sensorFault) :
    v.follows x (s.sampled c x) (s.sampledValidities c x) (s.arrives c) = if x.validity = .fresh then v.lose else v := by
  have ha : s.arrives c = false := Bool.eq_false_iff.mpr fun ha => by
    obtain ⟨w, hw, hne⟩ := Staging.arrives_iff.mp ha
    exact hne (Option.some.inj (hw.symm.trans h))
  have hvs : s.sampledValidities c x = if x.validity = .failed then [] else [.failed] := by
    unfold Staging.sampledValidities
    rw [h]
    exact sampleValidities_fault x
  unfold Speed.follows
  rw [if_neg (by rw [ha]; simp)]
  by_cases hx : x.validity = .fresh
  · have hne : s.sampledValidities c x ≠ [] := by
      rw [hvs, if_neg (by rw [hx]; simp)]
      exact List.cons_ne_nil _ _
    rw [if_pos hx, if_pos ⟨hx, hne⟩]
  · rw [if_neg hx, if_neg fun h => hx h.1]

/-- R45: another sample comes to it. -/
theorem Speed.follows_sample {w : Word} (h : s.inputs[c] = some w) (hw : w ≠ sensorFault) :
    v.follows x (s.sampled c x) (s.sampledValidities c x) (s.arrives c)
      = if x.kind = .speed then v.takeSample (x.takeSample w).1.filtered else v := by
  have hs : s.sampled c x = (x.takeSample w).1 := by
    unfold Staging.sampled
    rw [h]
    rfl
  unfold Speed.follows
  rw [if_pos (Staging.arrives_iff.mpr ⟨w, h, hw⟩), hs, Channel.takeSample_kind]

end

/-- A zone in PREHEAT or TRACK, or one in HOLD that returns, updates where a sample comes to its channel. -/
theorem Device.updates_of_sample {d : Device} {s : Staging} {z : Fin 12} {w : Word} (hw : s.inputs[d.zones[z].measChannel] = some w)
    (hne : w ≠ sensorFault) (hm : (d.zones[z].mode = .preheat ∨ d.zones[z].mode = .track)
      ∨ (d.zones[z].mode = .hold ∧ d.channels[d.zones[z].measChannel].validity ≠ .fresh ∧ d.holdDemand z = false)) : d.Updates s z := by
  have hvs : s.sampledValidities d.zones[z].measChannel d.channels[d.zones[z].measChannel]
      = if d.channels[d.zones[z].measChannel].validity = .fresh then [] else [.fresh] := by
    unfold Staging.sampledValidities
    rw [hw]
    exact sampleValidities_fresh _ hne
  refine ⟨Staging.arrives_iff.mpr ⟨w, hw, hne⟩, ?_, fun v hv => ?_, fun hh => ?_⟩
  · rcases hm with (h | h) | ⟨h, -⟩
    · exact .inl h
    · exact .inr (.inl h)
    · exact .inr (.inr h)
  · rw [hvs] at hv
    split at hv
    · cases hv
    · exact List.mem_singleton.mp hv
  · rcases hm with (h | h) | ⟨-, hv, hd⟩
    · rw [h] at hh; cases hh
    · rw [h] at hh; cases hh
    · exact ⟨by rw [hvs, if_neg hv]; exact List.cons_ne_nil _ _, hd⟩

section
variable {d before : Device} (h : Delivered (d.closeFrame true) d.port.frame.staging before)
include h

/-- R92: the update with the new values, of a zone that is in PREHEAT or TRACK. -/
theorem Delivered.update {z : Fin 12} {w : Word} (hn : (d.closeFrame true).NothingElse d.port.frame.staging)
    (hw : d.port.frame.staging.inputs[d.zones[z].measChannel] = some w) (hne : w ≠ sensorFault)
    (hm : d.zones[z].mode = .preheat ∨ d.zones[z].mode = .track) :
    before.zones[z] = (({ d with channels := before.channels, speed := before.speed } : Device).zoneArrival z).zones[z] := by
  have hz : before.zones[z] = _ := h.zones z hn (Device.updates_of_sample (d := d.closeFrame true) hw hne (.inl hm))
  have hhold : d.zones[z].mode ≠ .hold := by rcases hm with hm | hm <;> rw [hm] <;> simp
  rw [hz, Device.zoneArrival_record, Device.updateInput_eq rfl]
  exact congrArg (fun y => Zone.arrived (zoneKind z) y _) (Zone.seesFresh_other hhold)

/-- R84, R92: the update of a zone that has left HOLD. -/
theorem Delivered.updateResumed {z : Fin 12} {w : Word} (hn : (d.closeFrame true).NothingElse d.port.frame.staging)
    (hw : d.port.frame.staging.inputs[d.zones[z].measChannel] = some w) (hne : w ≠ sensorFault)
    (hm : d.zones[z].mode = .hold) (hv : d.channels[d.zones[z].measChannel].validity ≠ .fresh) (hd : d.holdDemand z = false) :
    before.zones[z] = ((({ d with channels := before.channels, speed := before.speed } : Device).resumeZone z).zoneArrival z).zones[z] := by
  have hz : before.zones[z] = _ := h.zones z hn (Device.updates_of_sample (d := d.closeFrame true) hw hne (.inr ⟨hm, hv, hd⟩))
  have hr : (({ d with channels := before.channels, speed := before.speed } : Device).resumeZone z).zones[z] = d.zones[z].seesFresh :=
    (Device.resumeZone_record _ z).trans (Zone.seesFresh_hold hm).symm
  rw [hz, Device.zoneArrival_record, Device.updateInput_eq (c := d.zones[z].measChannel) (by rw [hr, Zone.seesFresh_measChannel]),
    Device.resumeZone_updateFrom, hr]
  rfl

end

end Sys2Proof.Machine

/-! What a command leaves of the Ring Port and of the Timer Units (O13). -/

namespace Sys2Proof.Machine

/-- A reply that leaves the Ring Port, and the Timer Units too where it does not rewrite one; what it hands on comes from no outside, and is none of
the units'. -/
inductive Reply.Local (rewrites : Bool) (d : Device) : Reply → Prop
  | answer (rc : ResultCode) (ws : List Word) : Local rewrites d (.answer rc ws)
  | store {d1 : Device} {ws : List Word} : d1.port = d.port → (rewrites = false → d1.timers = d.timers) → Local rewrites d (.store d1 ws)
  | settled {e : Effect} {data : Device → List Word} : e.dev.port = d.port → (rewrites = false → e.dev.timers = d.timers) →
      (∀ j ∈ e.next, j.fromOutside = false ∧ j.movesTimers = false) → Local rewrites d (.settled e data)
  | waits {d1 : Device} : d1.port = d.port → d1.timers = d.timers → Local rewrites d (.waits d1)

section
variable {d : Device} {b : Bool}

/-- An originating change that hands nothing on itself. -/
theorem Reply.Local.of_change {d1 : Device} {data : Device → List Word} (hp : d1.port = d.port) (ht : d1.timers = d.timers) :
    Reply.Local b d (.settled { dev := d1 } data) := .settled hp (fun _ => ht) fun _ h => by cases h

theorem OnlyZones.portAndTimers {d' : Device} (h : OnlyZones d d') : d'.port = d.port ∧ d'.timers = d.timers := by
  obtain ⟨_, _, _, _, _, _, _, rfl⟩ := h
  exact ⟨rfl, rfl⟩

theorem OnlyMonitor.portAndTimers {d' : Device} (h : OnlyMonitor d d') : d'.port = d.port ∧ d'.timers = d.timers := by
  obtain ⟨_, _, _, rfl⟩ := h
  exact ⟨rfl, rfl⟩

theorem OnlyCapture.portAndTimers {d' : Device} (h : OnlyCapture d d') : d'.port = d.port ∧ d'.timers = d.timers := by
  obtain ⟨_, _, rfl⟩ := h
  exact ⟨rfl, rfl⟩

theorem OnlyTerms.portAndTimers {d' : Device} (h : OnlyTerms d d') : d'.port = d.port ∧ d'.timers = d.timers := by
  obtain ⟨_, _, rfl⟩ := h
  exact ⟨rfl, rfl⟩

theorem Device.commitCopy_local (d : Device) (tag : Byte) : (d.commitCopy tag).port = d.port ∧ (d.commitCopy tag).timers = d.timers := by
  unfold Device.commitCopy
  dsimp only
  split <;> exact ⟨rfl, rfl⟩

theorem mem_validityJobs {d : Device} {c : Fin 32} {old : Validity} {vs : List Validity} {j : Job} (h : j ∈ validityJobs d c old vs) :
    j.fromOutside = false ∧ j.movesTimers = false := by
  rcases List.mem_append.mp h with h | h
  · split at h
    · rw [List.mem_singleton.mp h]; exact ⟨rfl, rfl⟩
    · cases h
  · obtain ⟨v, -, h⟩ := List.mem_flatMap.mp h
    obtain ⟨z, -, rfl⟩ := List.mem_map.mp h
    exact ⟨rfl, rfl⟩

variable (d b)

/-! ## The configuration -/

theorem replyRing_local (r : Byte) (slot kind index : Word) : (d.replyWriteSlotMap r slot kind index).Local b d := by
  unfold Device.replyWriteSlotMap Device.replyWriteLinkRecord
  repeat' split
  all_goals first | exact .answer _ _ | exact .store rfl fun _ => rfl

theorem replyChannel_local : (∀ r k g o lo hi al, (d.replyWriteChannelScale r k g o lo hi al).Local b d)
    ∧ ∀ r s f hi lo hy fs en, (d.replyWriteChannelLimits r s f hi lo hy fs en).Local b d := by
  refine ⟨fun r k g o lo hi al => ?_, fun r s f hi lo hy fs en => ?_⟩
  · unfold Device.replyWriteChannelScale
    split
    · dsimp only
      split
      · split
        · exact .store rfl fun _ => rfl
        split
        · exact .answer _ _
        · exact .settled rfl (fun _ => rfl) fun j => mem_validityJobs
      · exact .answer _ _
    · exact .answer _ _
  · unfold Device.replyWriteChannelLimits
    split
    · dsimp only
      split
      · split
        · exact .of_change (Device.raiseAll_port _ _ _) (Device.raiseAll_timers _ _ _)
        · exact .store rfl fun _ => rfl
      · exact .answer _ _
    · exact .answer _ _

theorem replyConfig_local : (∀ r a c e f g, (d.replyWriteSpeedConfig r a c e f g).Local b d) ∧ (∀ h ws, (d.replyWriteProfile h ws).Local b d)
    ∧ (∀ r a c e f g h i, (d.replyWriteZoneSetup r a c e f g h i).Local b d) ∧ (∀ r a c e f g, (d.replyWriteZoneLoop r a c e f g).Local b d)
    ∧ ∀ r a c e f, (d.replyWriteZoneSafety r a c e f).Local b d := by
  refine ⟨fun r a c e f g => ?_, fun h ws => ?_, fun r a c e f g h i => ?_, fun r a c e f g => ?_, fun r a c e f => ?_⟩
  · unfold Device.replyWriteSpeedConfig
    dsimp only
    repeat' split
    all_goals first | exact .answer _ _ | exact .store rfl fun _ => rfl | exact .of_change rfl rfl
  · unfold Device.replyWriteProfile
    dsimp only
    repeat' split
    all_goals first | exact .answer _ _ | exact .store rfl fun _ => rfl
  · unfold Device.replyWriteZoneSetup
    repeat' split
    all_goals first | exact .answer _ _ | exact .store rfl fun _ => rfl
  · unfold Device.replyWriteZoneLoop
    repeat' split
    all_goals first | exact .answer _ _ | exact .store rfl fun _ => rfl
  · unfold Device.replyWriteZoneSafety
    repeat' split
    all_goals first | exact .answer _ _ | exact .store rfl fun _ => rfl

theorem replyWriteTimer_local (r : Byte) (a c e f g h : Word) : (d.replyWriteTimer r a c e f g h).Local true d := by
  unfold Device.replyWriteTimer
  dsimp only
  repeat' split
  all_goals first
    | exact .answer _ _
    | exact .store rfl fun h => Bool.noConfusion h
    | exact .settled rfl (fun h => Bool.noConfusion h) fun _ h => by cases h

theorem replyWriteTerm_local (r : Byte) (a c e f g h i k : Word) : (d.replyWriteTerm r a c e f g h i k).Local b d := by
  unfold Device.replyWriteTerm
  split
  · exact .answer _ _
  split
  · exact .answer _ _
  split
  · exact .answer _ _
  · obtain ⟨hp, ht⟩ := (d.rewriteTerm_frame _ _).portAndTimers
    exact .of_change hp ht

/-! ## The modes, the Monitor and the permit -/

theorem replyModes_local : (∀ mask mode, (d.replySetZoneMode mask mode).Local b d) ∧ (∀ tag, (d.replyCommitProfile tag).Local b d)
    ∧ d.replyRestorePermit.Local b d ∧ d.replyConfigureDone.Local b d := by
  refine ⟨fun mask mode => ?_, fun tag => ?_, ?_, ?_⟩
  · unfold Device.replySetZoneMode
    split
    · exact .answer _ _
    split
    · exact .answer _ _
    split
    · exact .answer _ _
    · obtain ⟨hp, ht⟩ := (d.commandZones_frame _ _).portAndTimers
      exact .of_change hp ht
  · unfold Device.replyCommitProfile
    split
    · exact .answer _ _
    · exact .waits (d.commitCopy_local tag).1 (d.commitCopy_local tag).2
  · unfold Device.replyRestorePermit
    repeat' split
    all_goals first | exact .answer _ _ | exact .store rfl fun _ => rfl
  · unfold Device.replyConfigureDone
    repeat' split
    all_goals first | exact .answer _ _ | exact .store rfl fun _ => rfl

theorem replyBreak_local : (∀ r a c e f, (d.replyWriteBreakConfig r a c e f).Local b d) ∧ d.replyArmBreak.Local b d ∧ d.replyBreakNow.Local b d
    ∧ d.replyResetBreak.Local b d := by
  refine ⟨fun r a c e f => ?_, ?_, ?_, ?_⟩
  · unfold Device.replyWriteBreakConfig
    repeat' split
    all_goals first | exact .answer _ _ | exact .of_change rfl rfl
  · unfold Device.replyArmBreak
    repeat' split
    all_goals first | exact .answer _ _ | exact .of_change rfl rfl
  · unfold Device.replyBreakNow
    split
    · next hm =>
      obtain ⟨hp, ht⟩ := (d.declareBreak_frame .command 0).portAndTimers
      refine .settled hp (fun _ => ht) fun j hj => ?_
      replace hj : j ∈ declarationJobs := by rw [← if_pos (c := d.monitor.state.mayDeclare = true) (t := declarationJobs) (e := []) hm]; exact hj
      simp only [declarationJobs, List.mem_cons, List.not_mem_nil, or_false] at hj
      rcases hj with rfl | rfl <;> exact ⟨rfl, rfl⟩
    · exact .answer _ _
  · unfold Device.replyResetBreak
    repeat' split
    all_goals first | exact .answer _ _ | exact .of_change rfl rfl

/-! ## The actuators, the Capture Buffer and the queue -/

theorem replyActuator_local : (∀ r a c e f g h, (d.replyWriteActuatorSource r a c e f g h).Local b d)
    ∧ (∀ r a c e f, (d.replyWriteActuatorBreak r a c e f).Local b d) ∧ ∀ a v, (d.replySetOutput a v).Local b d := by
  refine ⟨fun r a c e f g h => ?_, fun r a c e f => ?_, fun a v => ?_⟩
  · unfold Device.replyWriteActuatorSource
    dsimp only
    repeat' split
    all_goals first | exact .answer _ _ | exact .store rfl fun _ => rfl
  · unfold Device.replyWriteActuatorBreak
    dsimp only
    repeat' split
    all_goals first | exact .answer _ _ | exact .store rfl fun _ => rfl
  · unfold Device.replySetOutput
    dsimp only
    repeat' split
    all_goals first | exact .answer _ _ | exact .store rfl fun _ => rfl

theorem replyCapture_local : (∀ r a c e v, (d.replyWriteCaptureConfig r a c e v).Local b d) ∧ d.replyCaptureStart.Local b d
    ∧ d.replyCaptureStop.Local b d ∧ d.replyCaptureClear.Local b d ∧ d.replyCaptureTrigger.Local b d ∧ d.replyReadCapture.Local b d
    ∧ d.replyRewindCapture.Local b d := by
  refine ⟨fun r a c e v => ?_, ?_, ?_, .of_change rfl rfl, ?_, ?_, .store rfl fun _ => rfl⟩
  · unfold Device.replyWriteCaptureConfig Device.replyWriteCapturePostCount
    dsimp only
    split
    case h_1 =>
      split
      · exact .store rfl fun _ => rfl
      · exact .answer _ _
    all_goals
      repeat' split
      all_goals first | exact .answer _ _ | exact .store rfl fun _ => rfl
  · unfold Device.replyCaptureStart
    split
    · exact .answer _ _
    · exact .of_change rfl rfl
  · unfold Device.replyCaptureStop
    split
    · exact .answer _ _
    · exact .of_change rfl rfl
  · unfold Device.replyCaptureTrigger
    split
    · exact .answer _ _
    · obtain ⟨hp, ht⟩ := (d.captureTrigger_frame 0).portAndTimers
      exact .of_change hp ht
  · unfold Device.replyReadCapture
    repeat' split
    all_goals first | exact .answer _ _ | exact .store rfl fun _ => rfl

/-! ## All of them -/

/-- The reads answer. -/
theorem replyReads_local :
    (∀ r, (d.replyReadSlotMap r).Local b d) ∧ (∀ r p, (d.replyReadChannel r p).Local b d) ∧ (∀ r, (d.replyReadChannelState r).Local b d)
      ∧ (∀ r, (d.replyReadSpeedConfig r).Local b d) ∧ (∀ bank r f, (replyReadBank bank r f).Local b d) ∧ (∀ r p, (d.replyReadZone r p).Local b d)
      ∧ (∀ r, (d.replyReadZoneState r).Local b d) ∧ (∀ r, (d.replyReadTimer r).Local b d) ∧ (∀ r, (d.replyReadTimerState r).Local b d)
      ∧ (∀ r, (d.replyReadTerm r).Local b d) ∧ (∀ r, (d.replyReadBreakConfig r).Local b d) ∧ (∀ r, (d.replyReadBreakHistory r).Local b d)
      ∧ (∀ r p, (d.replyReadActuator r p).Local b d) ∧ ∀ r, (d.replyReadCaptureConfig r).Local b d := by
  refine ⟨fun r => ?_, fun r p => ?_, fun r => ?_, fun r => ?_, fun bank r f => ?_, fun r p => ?_, fun r => ?_, fun r => ?_, fun r => ?_,
    fun r => ?_, fun r => ?_, fun r => ?_, fun r p => ?_, fun r => ?_⟩
  · unfold Device.replyReadSlotMap
    split
    · exact .answer _ _
    split
    · exact .answer _ _
    split <;> exact .answer _ _
  · unfold Device.replyReadChannel; split <;> exact .answer _ _
  · unfold Device.replyReadChannelState; split <;> exact .answer _ _
  · unfold Device.replyReadSpeedConfig; split <;> exact .answer _ _
  · unfold replyReadBank; split <;> exact .answer _ _
  · unfold Device.replyReadZone; split <;> exact .answer _ _
  · unfold Device.replyReadZoneState; split <;> exact .answer _ _
  · unfold Device.replyReadTimer; split <;> exact .answer _ _
  · unfold Device.replyReadTimerState; split <;> exact .answer _ _
  · unfold Device.replyReadTerm; split <;> exact .answer _ _
  · unfold Device.replyReadBreakConfig; split <;> exact .answer _ _
  · unfold Device.replyReadBreakHistory; split <;> exact .answer _ _
  · unfold Device.replyReadActuator; split <;> exact .answer _ _
  · unfold Device.replyReadCaptureConfig; split <;> exact .answer _ _

/-- Every command leaves the Ring Port, and but for WRITE_TIMER the units. -/
theorem reply_local (tag : Byte) (c : Cmd) : (d.reply tag c).Local c.writesTimer d := by
  obtain ⟨r1, r2, r3, r4, r5, r6, r7, r8, r9, r10, r11, r12, r13, r14⟩ := replyReads_local d c.writesTimer
  obtain ⟨h1, h2⟩ := replyChannel_local d c.writesTimer
  obtain ⟨g1, g2, z1, z2, z3⟩ := replyConfig_local d c.writesTimer
  obtain ⟨m1, m2, m3, m4⟩ := replyModes_local d c.writesTimer
  obtain ⟨b1, b2, b3, b4⟩ := replyBreak_local d c.writesTimer
  obtain ⟨a1, a2, a3⟩ := replyActuator_local d c.writesTimer
  obtain ⟨c1, c2, c3, c4, c5, c6, c7⟩ := replyCapture_local d c.writesTimer
  cases c <;> simp only [Device.reply]
  case unknown | invalid | identify | readStatus => exact .answer _ _
  case writeSlotMap => exact replyRing_local d _ _ _ _ _
  case readSlotMap => exact r1 _
  case writeChannelScale => exact h1 _ _ _ _ _ _ _
  case writeChannelLimits => exact h2 _ _ _ _ _ _ _ _
  case readChannel => exact r2 _ _
  case readChannelState => exact r3 _
  case writeSpeedConfig => exact g1 _ _ _ _ _ _
  case readSpeedConfig => exact r4 _
  case writeProfile => exact g2 _ _
  case readProfileShadow | readProfileActive => exact r5 _ _ _
  case commitProfile => exact m2 tag
  case writeZoneSetup => exact z1 _ _ _ _ _ _ _ _
  case writeZoneLoop => exact z2 _ _ _ _ _ _
  case writeZoneSafety => exact z3 _ _ _ _ _
  case readZone => exact r6 _ _
  case readZoneState => exact r7 _
  case setZoneMode => exact m1 _ _
  case writeTimer => exact replyWriteTimer_local d _ _ _ _ _ _ _
  case readTimer => exact r8 _
  case readTimerState => exact r9 _
  case writeTerm => exact replyWriteTerm_local d _ _ _ _ _ _ _ _ _ _
  case readTerm => exact r10 _
  case restorePermit => exact m3
  case writeBreakConfig => exact b1 _ _ _ _ _
  case readBreakConfig => exact r11 _
  case readBreakHistory => exact r12 _
  case armBreak => exact b2
  case breakNow => exact b3
  case resetBreak => exact b4
  case writeActuatorSource => exact a1 _ _ _ _ _ _ _
  case writeActuatorBreak => exact a2 _ _ _ _ _
  case readActuator => exact r13 _ _
  case setOutput => exact a3 _ _
  case writeCaptureConfig => exact c1 _ _ _ _ _
  case readCaptureConfig => exact r14 _
  case captureStart => exact c2
  case captureStop => exact c3
  case captureClear => exact c4
  case captureTrigger => exact c5
  case readCapture => exact c6
  case rewindCapture => exact c7
  case configureDone => exact m4
  case readEventsOldest | readEventsUrgent | clearEvents => exact .store rfl fun _ => rfl
  case softReset => exact .waits rfl rfl

end

end Sys2Proof.Machine

/-! What the hand-over of a command leaves of the Ring Port and of the Timer Units (O13). -/

namespace Sys2Proof.Machine

theorem reaction_fromOutside {d0 d : Device} {x : Job} (h : Reaction d0 d x) : x.fromOutside = false := by
  cases h <;> rfl

theorem Port.eq_of_fields {p q : Port} (hl : p.link = q.link) (hc : p.cycleCount = q.cycleCount) (hb : p.badRun = q.badRun)
    (ht : p.timeoutCountdown = q.timeoutCountdown) (hp : p.permitRequest = q.permitRequest) (hr : p.triggerRequest = q.triggerRequest)
    (hf : p.frame = q.frame) : p = q := by
  cases p
  cases q
  congr

theorem Job.moves_of_inside {j : Job} (h : j.fromOutside = false) : j.movesLink = false ∧ j.movesControl = false := by
  cases j
  case timeoutTick | linkGood | linkBad | controlWord => cases h
  all_goals exact ⟨rfl, rfl⟩

theorem port_kept (p : Port) : KeptByEvent (fun d => d.port = p) fun j => j.movesLink = false ∧ j.movesControl = false where
  choose d n h := by
    obtain ⟨o, ho⟩ := d.choose_dev n
    rw [ho]
    exact h
  act ws d j m h hj := by
    have hs := settled_act_spares ws d j m
    rw [← h]
    exact Port.eq_of_fields (hs.link hj.1) hs.cycleCount (hs.badRun hj.1) (hs.countdown hj.1) (hs.permitRequest hj.2) (hs.triggerRequest hj.2) hs.frame
  handsOn ws d j m _ _ x hx := Job.moves_of_inside (fromOutside_of_mem_handedOn hx)

theorem Job.movesUnit_of_spared {j : Job} (h : j.movesTimers = false) (k : Fin 6) : j.movesUnit k = false := by
  cases j
  case timerEdge | timerClock => cases h
  all_goals rfl

theorem unit_kept {k : Fin 6} {x : Timer} (hx : x.Alone) : KeptByEvent (fun d => d.timers[k] = x) fun j => j.movesUnit k = false where
  choose d n h := by
    obtain ⟨o, ho⟩ := d.choose_dev n
    rw [ho]
    exact h
  act ws d j m h hj := (event_unit ws d hj m).trans h
  handsOn ws d j m h hj y hy := by
    have := List.filter_eq_nil_iff.mp (handedOn_alone (ws := ws) (j := j) (k := k) (h ▸ hx) m) y hy
    simpa using this

section
variable {d : Device} {tag : Byte} {c : Cmd}

/-- What a command other than SOFT_RESET keeps: a change that leaves the Ring Port and the units keeps it, a result does, and the events that an
originating change starts. -/
theorem handOff_local {P : Device → Prop} (hc : c ≠ .softReset) (h : P d) (result : ∀ d' rc tag code data, P d' → P (d'.setResult rc tag code data))
    (kept : ∀ d1 : Device, d1.port = d.port → (c.writesTimer = false → d1.timers = d.timers) → P d1)
    (run : ∀ e : Effect, e.dev.port = d.port → (c.writesTimer = false → e.dev.timers = d.timers) →
      (∀ j ∈ e.next, j.fromOutside = false ∧ j.movesTimers = false) → P (d.runEffect e)) : P (d.handOff tag c) := by
  unfold Device.handOff
  rw [if_neg hc]
  split
  · exact h
  split
  · unfold Device.execute
    split
    · exact result _ _ _ _ _ h
    · have hr := reply_local d tag c
      generalize d.reply tag c = r at hr
      cases hr with
      | answer rc ws => exact result _ _ _ _ _ h
      | store hp ht => exact result _ _ _ _ _ (kept _ hp ht)
      | settled hp ht hn => exact result _ _ _ _ _ (run _ hp ht hn)
      | waits hp ht => exact kept _ hp fun _ => ht
  · exact h

theorem Device.handOff_port (hc : c ≠ .softReset) : (d.handOff tag c).port = d.port :=
  handOff_local (P := fun d' => d'.port = d.port) hc rfl (fun _ _ _ _ _ h => h) (fun _ hp _ => hp) fun e hp _ hn =>
    Device.runEffect_keeps (port_kept d.port) d e
      (fun m => by obtain ⟨_, _, _, _, he⟩ := settled_frame d e m; rw [he]; exact hp)
      fun m x hx => Job.moves_of_inside ((mem_handedOn hx).elim (fun hx => (hn x hx).1) reaction_fromOutside)

/-- R19: no command moves the link; its countdown and bad run stand too. -/
theorem Device.handOff_link : (d.handOff tag c).port.link = d.port.link ∧ (d.handOff tag c).port.badRun = d.port.badRun
    ∧ (d.handOff tag c).port.timeoutCountdown = d.port.timeoutCountdown := by
  by_cases hc : c = .softReset
  · unfold Device.handOff
    split
    · exact ⟨rfl, rfl, rfl⟩
    · rw [d.softReset_blocks.1]
      exact ⟨rfl, rfl, rfl⟩
  · rw [Device.handOff_port hc]
    exact ⟨rfl, rfl, rfl⟩

/-- R107: a command that writes no timer leaves a unit that stands alone. -/
theorem Device.handOff_unit (hc : c ≠ .softReset) (hw : c.writesTimer = false) {k : Fin 6} (hx : d.timers[k].Alone) :
    (d.handOff tag c).timers[k] = d.timers[k] := by
  refine handOff_local (P := fun d' => d'.timers[k] = d.timers[k]) hc rfl (fun _ _ _ _ _ h => h) (fun d1 _ ht => by rw [ht hw]) fun e _ ht hn => ?_
  have hset : ∀ m, (Machine.settled d e m).timers = d.timers := fun m => by
    obtain ⟨_, _, _, _, he⟩ := settled_frame d e m
    rw [he]
    exact ht hw
  refine Device.runEffect_keeps (unit_kept hx) d e (fun m => by rw [hset]) fun m x hj => ?_
  rcases mem_handedOn hj with hj | hj
  · exact Job.movesUnit_of_spared (hn x hj).2 k
  · cases hj with
    | edge i hi =>
      by_cases hik : i = k
      · subst hik
        refine absurd (Device.level_isFixed ?_) hi
        rw [hset]
        exact hx.1
      · simp [Job.movesUnit, Job.block, hik]
    | _ => rfl

end

end Sys2Proof.Machine

/-! A good completion as a whole: the deliveries, and the command that comes with them (O13). -/

namespace Sys2Proof.Machine

theorem Job.besideCommand_of_inside {j : Job} (h : j.fromOutside = false) : j.besideCommand = false := by
  cases j
  case timerClock k source => exact h
  case captureRecord => cases h
  all_goals rfl

/-- Where no clock and no recording comes with the moment, none ever waits in it. -/
theorem beside_kept (p : Prop) : KeptByEvent (fun _ => True) fun j => p → j.besideCommand = false where
  choose _ _ h := h
  act _ _ _ _ h _ := h
  handsOn _ _ _ _ _ _ _ hx _ := Job.besideCommand_of_inside (fromOutside_of_mem_handedOn hx)

/-- An idle Mailbox stays as it is, whatever the event. -/
theorem mailbox_kept (m : Mailbox) (hm : m.executing = none) : KeptByEvent (fun d => d.mailbox = m) fun _ => True where
  choose d n h := by
    obtain ⟨o, ho⟩ := d.choose_dev n
    rw [ho]
    exact h
  act ws d j k h _ := by rw [event_mailbox ws (by rw [h]; exact hm) j k, h]
  handsOn _ _ _ _ _ _ _ _ := trivial

/-- The deliveries of a good frame leave `before`; where a command comes with them, what it leaves is settled then but for the clocks and the
recording. -/
structure Completed (d0 : Device) (s : Staging) (command : Option (Byte × Cmd)) (before t : Device) : Prop where
  delivered : Delivered d0 s before
  bare : command = none → t = before
  port : ∀ c, command = some c → t.port = (before.handOff c.1 c.2).port
  mailbox : ∀ c, command = some c → (before.handOff c.1 c.2).mailbox.executing = none → t.mailbox = (before.handOff c.1 c.2).mailbox
  alone : ∀ c, command = some c → d0.cycleRoots command = [] → d0.recordRoots true command = [] → t = before.handOff c.1 c.2

theorem Device.goodRoots_beside {d : Device} {s : Staging} {command : Option (Byte × Cmd)} {j : Job} (hc : d.cycleRoots command = [])
    (hr : d.recordRoots true command = []) (h : j ∈ d.goodRoots s command) : j.besideCommand = false := by
  have hf : (d.goodRoots s command).filter Job.besideCommand = [] := by
    rw [d.goodRoots_filter, hc, hr, filter_map_none (fun _ => rfl), filter_ite_none rfl, filter_map_none (fun _ => rfl),
      filter_map_none (fun _ => rfl), filter_map_none (fun _ => rfl), filter_ite_none rfl]
    rfl
  exact Bool.eq_false_iff.mpr (List.filter_eq_nil_iff.mp hf j h)

theorem Device.goodCompletion (d0 : Device) (s : Staging) (command : Option (Byte × Cmd)) :
    ∃ before, Completed d0 s command before (d0.runRoots (Device.handStaged command) (d0.goodRoots s command)) := by
  have tracks := (delivery_tracks d0 s).and
    ((beside_kept (d0.cycleRoots command = [] ∧ d0.recordRoots true command = [])).tracks fun _ _ h => h) rfl
  have jobs : ∀ j ∈ d0.goodRoots s command, j ≠ .command → d0.DeliveryJob s j Config.generations
      ∧ (d0.cycleRoots command = [] ∧ d0.recordRoots true command = [] → j.besideCommand = false) := fun j hj hc =>
    ⟨Device.goodRoots_deliveryJob hj hc, fun ⟨hcycle, hrecord⟩ => Device.goodRoots_beside hcycle hrecord hj⟩
  have modest : ∀ j ∈ d0.goodRoots s command, j.Modest := fun j hj => Device.goodRoots_modest hj
  have hcount := d0.goodRoots_command s command
  cases command with
  | none =>
    have hnone : ∀ j ∈ d0.goodRoots s none, j ≠ .command := fun j hj he => List.count_eq_zero.mp hcount (he ▸ hj)
    have h := tracks.runRoots d0 _ modest (fun j hj => jobs j hj (hnone j hj)) ⟨d0.goodRoots_delivery s none, trivial⟩
    exact ⟨_, h.1.delivered (fun _ hw => by cases hw), fun _ => rfl, fun _ hc => (by cases hc), fun _ hc => (by cases hc), fun _ hc => (by cases hc)⟩
  | some c =>
    obtain ⟨before, ws, hat, hafter⟩ := tracks.runUntilCommand rfl (Device.handStaged (some c)) d0 _ modest jobs hcount
      ⟨d0.goodRoots_delivery s (some c), trivial⟩
    have hlate : ∀ w ∈ ws, w.besideCommand = true := fun w hw => Job.besideCommand_of_precedes (hat.jobs w hw).1 (hat.late w hw)
    refine ⟨before, hat.follows.1.delivered fun w hw => hlate w (List.mem_filter.mp hw).1, fun hc => (by cases hc), fun c' hc => ?_, fun c' hc hm => ?_,
      fun c' hc hcycle hrecord => ?_⟩
    all_goals obtain rfl := Option.some.inj hc
    · refine (hafter.kept _ _ (port_kept _) (fun w hw => ?_) rfl).1
      have := hlate w hw
      cases w
      case timerClock | captureRecord => exact ⟨rfl, rfl⟩
      all_goals cases this
    · exact (hafter.kept _ _ (mailbox_kept _ hm) (fun _ _ => trivial) rfl).1
    · refine (hafter.alone (List.eq_nil_iff_forall_not_mem.mpr fun w hw => ?_)).1
      obtain ⟨-, n, -, hb⟩ := hat.jobs w hw
      rw [hlate w hw] at hb
      cases hb ⟨hcycle, hrecord⟩

end Sys2Proof.Machine

/-! The record of a good completion (O13). -/

namespace Sys2Proof.Machine

/-- R170: the record that the Capture Buffer of `d0` makes of the channels and the tracker of `d`. -/
def Device.recordOf (d0 d : Device) : CaptureRecord := ({ d0 with channels := d.channels, speed := d.speed } : Device).makeRecord true

theorem Device.recordOf_congr {d0 d d' : Device} (hc : d'.channels = d.channels) (hs : d'.speed = d.speed) : d0.recordOf d' = d0.recordOf d := by
  unfold Device.recordOf
  rw [hc, hs]

/-- The recording of a good completion without a command: it still waits, or has been made of what the channels and the tracker then were, and are. -/
structure GoodRecordFollows (μ : Byte) (s : Staging) (d0 d : Device) (ts : List Job) : Prop where
  calm : d.Calm μ
  cycleCount : d.port.cycleCount = d0.port.cycleCount
  state : d.monitor.state = d0.monitor.state
  requests : ∀ ns, Job.captureTrigger ns ∉ ts
  control : (ts.filter (fun j => j.block == .control) = s.control.toList.map Job.controlWord ∧ d.capture.lastRequest = d0.capture.lastRequest)
    ∨ ts.filter (fun j => j.block == .control) = []
  buffer : (ts.count (.captureRecord true) = 1 ∧ ∃ b, d.capture = { d0.capture with lastRequest := b })
    ∨ (Job.captureRecord true ∉ ts ∧ (∀ w ∈ ts, w.ofChannel = false ∧ w.ofTracker = false)
      ∧ d.capture.records = pushRecord d0.capture.records (d0.recordOf d))

section
variable {μ : Byte} {s : Staging} {d0 : Device}

/-- No trigger is handed on: a control word brings the request up only where it was up already. -/
theorem GoodRecordFollows.noTrigger (hn : d0.NothingElse s) {d : Device} {as ws : List Job} {j x : Job} {m : TermSet} (hj : OfGoodCompletion μ j)
    (h : GoodRecordFollows μ s d0 d (j :: ws)) (hx : x ∈ handedOn d (act as d j) m) (ns : List Nat) : x ≠ .captureTrigger ns := by
  rintro rfl
  rcases hj.mem_handedOn h.calm hx with hx | ⟨_, _, hx⟩
  · cases hx with
    | request w hw hlast =>
      have hc := h.control
      rw [List.filter_cons_of_pos rfl] at hc
      rcases hc with ⟨hts, hl⟩ | hts
      · have hword : s.control = some w := by
          cases hs : s.control with
          | none => rw [hs] at hts; cases hts
          | some v => rw [hs] at hts; rw [Job.controlWord.inj (List.cons.inj hts).1]
        rw [hl, hn.request w hword hw] at hlast
        cases hlast
      · cases hts
    | trigger _ hd => rw [hj.plain.2.2.1] at hd; cases hd
  · cases hx

/-- What an event of a channel hands on is the channel's or the tracker's or none of the buffer's. -/
theorem OfGoodCompletion.handedOn_recording {d : Device} (hd : d.Calm μ) {as : List Job} {j x : Job} {m : TermSet} (hj : OfGoodCompletion μ j)
    (hc : j.ofChannel = false) (hx : x ∈ handedOn d (act as d j) m) : x.ofChannel = false ∧ x.ofTracker = false := by
  rcases hj.mem_handedOn hd hx with hx | ⟨s, r, rfl⟩
  · cases hx with
    | tick | sample | loss | validity => cases hc
    | request | cascade => exact ⟨rfl, rfl⟩
    | zonesBreak j hj' | trigger j hj' => rw [hj.plain.2.2.1] at hj'; cases hj'
  · exact ⟨rfl, rfl⟩

/-- The recording, in its turn. -/
theorem GoodRecordFollows.record {d : Device} {as ws : List Job} {m : TermSet} (hq : d0.capture.state.recording = true) (h0 : d0.capture.counter = 0)
    (h : GoodRecordFollows μ s d0 d (.captureRecord true :: ws)) :
    Job.captureRecord true ∉ ws
      ∧ (settled d (act as d (.captureRecord true)) m).capture.records = pushRecord d0.capture.records (d0.recordOf d) := by
  rcases h.buffer with ⟨hone, b, hb⟩ | ⟨hnone, -⟩
  · rw [List.count_cons_self] at hone
    refine ⟨List.count_eq_zero.mp (by omega), ?_⟩
    rw [settled_capture]
    have hadd := (Device.recordCompletion_adds (d := d) (by rw [hb]; exact hq) (by rw [hb]; exact h0) true).1
    have hrecord : d.makeRecord true = d0.recordOf d := by
      unfold Device.recordOf
      simp only [Device.makeRecord, h.cycleCount, h.state, hb]
    rw [hrecord, hb] at hadd
    exact hadd
  · exact absurd List.mem_cons_self hnone

/-- What the buffer holds, after an event that is not the recording. -/
theorem GoodRecordFollows.other {d d' : Device} {ws hs : List Job} {j : Job} (hj : j ≠ .captureRecord true)
    (hnone : ∀ x ∈ hs, x ≠ .captureRecord true) (hcap : ∃ b, d'.capture = { d.capture with lastRequest := b })
    (hquiet : j.ofChannel = false → j.ofTracker = false →
      (∀ x ∈ hs, x.ofChannel = false ∧ x.ofTracker = false) ∧ d'.channels = d.channels ∧ d'.speed = d.speed)
    (h : ((j :: ws).count (.captureRecord true) = 1 ∧ ∃ b, d.capture = { d0.capture with lastRequest := b })
      ∨ (Job.captureRecord true ∉ j :: ws ∧ (∀ w ∈ j :: ws, w.ofChannel = false ∧ w.ofTracker = false)
        ∧ d.capture.records = pushRecord d0.capture.records (d0.recordOf d))) :
    ((ws ++ hs).count (.captureRecord true) = 1 ∧ ∃ b, d'.capture = { d0.capture with lastRequest := b })
      ∨ (Job.captureRecord true ∉ ws ++ hs ∧ (∀ w ∈ ws ++ hs, w.ofChannel = false ∧ w.ofTracker = false)
        ∧ d'.capture.records = pushRecord d0.capture.records (d0.recordOf d')) := by
  obtain ⟨b', hcap⟩ := hcap
  rcases h with ⟨hone, b, hb⟩ | ⟨hno, hw, hrecords⟩
  · rw [List.count_cons_of_ne hj] at hone
    refine .inl ⟨by rw [List.count_append, hone, List.count_eq_zero.mpr fun hm => hnone _ hm rfl], b', ?_⟩
    rw [hcap, hb]
  · obtain ⟨hc, ht⟩ := hw j List.mem_cons_self
    obtain ⟨hhs, hch, hsp⟩ := hquiet hc ht
    refine .inr ⟨notMem_append (fun hm => hno (List.mem_cons_of_mem _ hm)) hnone,
      fun w hm => (List.mem_append.mp hm).elim (fun hm => hw w (List.mem_cons_of_mem _ hm)) (hhs w), ?_⟩
    rw [hcap, Device.recordOf_congr hch hsp]
    exact hrecords

theorem Job.controlWord_of_block {j : Job} (h : (j.block == .control) = true) : ∃ w, j = .controlWord w := by
  cases j
  case controlWord w => exact ⟨w, rfl⟩
  all_goals cases h

/-- The control word, after any event. -/
theorem GoodRecordFollows.controlAfter {d d' : Device} {ws hs : List Job} {j : Job} (hnone : ∀ x ∈ hs, x.block ≠ .control)
    (hlast : j.block ≠ .control → d'.capture.lastRequest = d.capture.lastRequest) (h : GoodRecordFollows μ s d0 d (j :: ws)) :
    ((ws ++ hs).filter (fun j => j.block == .control) = s.control.toList.map Job.controlWord ∧ d'.capture.lastRequest = d0.capture.lastRequest)
      ∨ (ws ++ hs).filter (fun j => j.block == .control) = [] := by
  have hhs : hs.filter (fun j => j.block == .control) = [] := List.filter_eq_nil_iff.mpr fun x hx hb => hnone x hx (beq_iff_eq.mp hb)
  have hc := h.control
  rw [List.filter_append, hhs, List.append_nil]
  by_cases hb : j.block = .control
  · rw [List.filter_cons_of_pos (p := fun j : Job => j.block == .control) (beq_iff_eq.mpr hb)] at hc
    rcases hc with ⟨hts, -⟩ | hts
    · cases hw : s.control with
      | none => rw [hw] at hts; cases hts
      | some w => rw [hw] at hts; exact .inr (List.cons.inj hts).2
    · cases hts
  · rw [List.filter_cons_of_neg (p := fun j : Job => j.block == .control) (by simpa using hb)] at hc
    exact hc.imp_left fun ⟨hts, hl⟩ => ⟨hts, (hlast hb).trans hl⟩

theorem OfGoodCompletion.movesCapture {j : Job} (hj : OfGoodCompletion μ j) (hr : j ≠ .captureRecord true) (ht : ∀ ns, j ≠ .captureTrigger ns)
    (ws : List Job) (d : Device) (m : TermSet) : ∃ b, (settled d (act ws d j) m).capture = { d.capture with lastRequest := b } := by
  cases hj
  case control w => exact ⟨w.getLsbD 1, by rw [settled_capture]; rfl⟩
  case record => exact absurd rfl hr
  case request => exact absurd rfl (ht _)
  all_goals exact ⟨d.capture.lastRequest, by rw [(settled_act_spares ws d _ m).capture rfl]⟩

theorem goodRecord_tracks (hn : d0.NothingElse s) (hq : d0.capture.state.recording = true) (h0 : d0.capture.counter = 0) :
    Tracks (fun j _ => OfGoodCompletion μ j) Job.notCommand id (GoodRecordFollows μ s d0) where
  perm {d ts ts'} hp h := { h with
    requests := fun ns hm => h.requests ns (hp.mem_iff.mpr hm)
    control := h.control.imp
      (fun ⟨hts, hl⟩ => ⟨by
        have hp' := hp.filter (fun j => j.block == .control)
        rw [hts] at hp'
        cases hs : s.control with
        | none => rw [hs] at hp'; exact List.nil_perm.mp hp'
        | some w => rw [hs] at hp'; exact List.perm_singleton.mp hp'.symm, hl⟩)
      fun hts => (perm_nil_iff (hp.filter _)).mpr hts
    buffer := by
      rw [← hp.count_eq, ← hp.mem_iff]
      exact h.buffer.imp_right fun ⟨hno, hw, hr⟩ => ⟨hno, fun w hm => hw w (hp.mem_iff.mpr hm), hr⟩ }
  choices o h := { h with calm := h.calm.choices o }
  act {ws d j n m} hj hcmd hws hturn h := by
    have hspares := settled_act_spares ws d j m
    rw [List.filter_cons_of_pos (p := Job.notCommand) (bne_iff_ne.mpr hcmd)] at h
    have hin : ∀ x ∈ (if n = 0 then [] else (handedOn d (act ws d j) m).filter Job.notCommand), x ∈ handedOn d (act ws d j) m := fun x hx => by
      split at hx
      · cases hx
      · exact (List.mem_filter.mp hx).1
    have hoffers : ∀ x ∈ (if n = 0 then [] else (handedOn d (act ws d j) m).filter Job.notCommand), x.fromOutside = false := fun x hx =>
      fromOutside_of_mem_handedOn (hin x hx)
    have hrecord : ∀ x ∈ (if n = 0 then [] else (handedOn d (act ws d j) m).filter Job.notCommand), x ≠ .captureRecord true := fun x hx he => by
      have := hoffers x hx
      rw [he] at this
      cases this
    refine ⟨h.calm.kept hj.plain.1 m, hspares.cycleCount.trans h.cycleCount, (hj.monitor_state ws d m).trans h.state,
      fun ns => notMem_append (fun hm => h.requests ns (List.mem_cons_of_mem _ hm)) fun x hx => h.noTrigger hn hj (hin x hx) ns,
      h.controlAfter (fun x hx hb => ?_) fun hb => event_lastRequest ws d hb m, ?_⟩
    · obtain ⟨w, rfl⟩ := Job.controlWord_of_block (beq_iff_eq.mpr hb)
      cases hoffers _ hx
    · by_cases hr : j = .captureRecord true
      · subst hr
        obtain ⟨hno, hrecords⟩ := h.record (as := ws) (m := m) hq h0
        have hbefore : ∀ a ∈ ws, a.ofChannel = false ∧ a.ofTracker = false := fun a ha => by
          rcases hturn.precedes with hquiet | hall
          · cases hquiet
          · exact Bool.or_eq_false_iff.mp (Bool.or_eq_false_iff.mp (hall a ha)).2
        refine .inr ⟨notMem_append hno hrecord, fun w hw => ?_, ?_⟩
        · rcases List.mem_append.mp hw with hw | hw
          · exact hbefore w (List.mem_filter.mp hw).1
          · exact hj.handedOn_recording h.calm rfl (hin w hw)
        · rw [Device.recordOf_congr (hspares.channels rfl) (hspares.speed rfl)]
          exact hrecords
      · refine GoodRecordFollows.other hr hrecord (hj.movesCapture hr (fun ns he => h.requests ns (he ▸ List.mem_cons_self)) ws d m)
          (fun hc ht => ⟨fun x hx => hj.handedOn_recording h.calm hc (hin x hx), hspares.channels ?_, hspares.speed ht⟩) h.buffer
        cases j
        case channelChange => cases hc
        all_goals rfl
  handsOn hj hcmd _ h x hx := by
    rw [List.filter_cons_of_pos (p := Job.notCommand) (bne_iff_ne.mpr hcmd)] at h
    exact hj.handsOn h.calm hx
  command h := absurd rfl h.plain.2.2.2

/-- R170: the record of a good completion without a command, at counter 0 of a buffer that records. -/
theorem Device.goodCompletion_records (hn : d0.NothingElse s) (hq : d0.capture.state.recording = true) (h0 : d0.capture.counter = 0) :
    (d0.runRoots id (d0.goodRoots s none)).capture.records
      = pushRecord d0.capture.records (d0.recordOf (d0.runRoots id (d0.goodRoots s none))) := by
  have hnone : ∀ j ∈ d0.goodRoots s none, j ≠ .command := fun j hj he => List.count_eq_zero.mp (d0.goodRoots_command s none) (he ▸ hj)
  have hactive : d0.recordRoots true none = [.captureRecord true] := by
    rw [d0.recordRoots_none, if_pos (CaptureState.active_of_recording hq)]
  have h := (goodRecord_tracks (μ := d0.monitor.membership) hn hq h0).runRoots d0 _ (fun j hj => Device.goodRoots_modest hj)
    (fun j hj => Device.goodRoots_ofGood hn.breakWord hj (hnone j hj)) ⟨⟨hn.unread, rfl⟩, rfl, rfl, fun ns hm => ?_, .inl ⟨?_, rfl⟩, .inl ⟨?_, _, rfl⟩⟩
  · rcases h.buffer with ⟨hc, -⟩ | ⟨-, -, hr⟩
    · cases hc
    · exact hr
  · rcases Device.mem_goodRoots (List.mem_filter.mp hm).1 with h | ⟨_, _, h, -⟩ | ⟨h, -⟩ | ⟨_, h, -⟩ | ⟨_, h, -⟩ | ⟨_, h, -⟩ | ⟨_, h⟩ | h | ⟨h, -⟩ <;> cases h
  · rw [filter_notCommand rfl, d0.goodRoots_control]
  · rw [List.count_filter (by simp [Job.notCommand]), ← List.count_filter (p := Job.movesCapture) rfl, d0.goodRoots_capture, hactive]
    cases s.control <;> simp

end

end Sys2Proof.Machine

/-! The units at a good completion, and the command that it brings as the row of the table (O13). -/

namespace Sys2Proof.Machine

/-! ## The units -/

theorem Device.goodRoots_unit (d : Device) (s : Staging) {command : Option (Byte × Cmd)} (hw : ∀ c ∈ command, c.2.writesTimer = false) (k : Fin 6) :
    (d.goodRoots s command).filter (Job.movesUnit k) = (d.clockRoots .cycle).filter (Job.movesUnit k) := by
  have hcycle : d.cycleRoots command = d.clockRoots .cycle := by
    refine if_neg fun h => ?_
    cases command with
    | none => cases h
    | some c =>
      rw [Option.any_some, hw c rfl] at h
      cases h
  rw [d.goodRoots_filter, filter_map_none (fun _ => rfl), filter_ite_none rfl, filter_map_none (fun _ => rfl), filter_map_none (fun _ => rfl),
    filter_map_none (fun _ => rfl), hcycle, Device.recordRoots_filter_none rfl, filter_ite_none rfl]
  simp [Job.movesUnit, Job.block]

/-- R107, R108: a CYCLE unit with a constant input and hold, where the command neither writes a timer nor resets the part. -/
theorem Device.goodCompletion_unit (d : Device) (s : Staging) {command : Option (Byte × Cmd)}
    (hc : ∀ c ∈ command, c.2.writesTimer = false ∧ c.2 ≠ .softReset) {k : Fin 6} (hk : d.timers[k].clock = .cycle)
    (hin : d.timers[k].input.isFixed = true) {b : Bool} (hh : d.timers[k].hold = .fixed b) :
    (d.runRoots (Device.handStaged command) (d.goodRoots s command)).timers[k] = d.timers[k].clocked b := by
  have hx : d.timers[k].Alone := ⟨hin, fun hcascade => by rw [hcascade] at hk; cases hk⟩
  have hr : (d.goodRoots s command).filter (Job.movesUnit k) = [.timerClock k d.timers[k].clock] := by
    rw [d.goodRoots_unit s (fun c h => (hc c h).1), d.clockRoots_unit .cycle k, hk]
    rfl
  have hcommand : ∀ d' : Device, d'.timers[k].Alone → (Device.handStaged command d').timers[k] = d'.timers[k] := fun d' halone => by
    cases command with
    | none => rfl
    | some c => exact Device.handOff_unit (hc c rfl).2 (hc c rfl).1 halone
  rw [Device.runRoots_unit (held := b) hx hcommand (fun j hj => Device.goodRoots_modest hj) (by rw [hr]; simp) (fun _ d' => by rw [hh]; rfl), hr]
  rfl

/-! ## The command as a row -/

theorem Cmd.ofWrite_ne_unknown (p : Nat → Word) (code : Byte) : Cmd.ofWrite p ≠ .unknown code := by
  unfold Cmd.ofWrite
  dsimp only
  split <;> simp

theorem Cmd.ofRead_ne_unknown (p : Nat → Word) (code : Byte) : Cmd.ofRead p ≠ .unknown code := by
  unfold Cmd.ofRead
  dsimp only
  split <;> simp

/-- R180: a code that spells an unknown command spells it with whatever words. -/
theorem Cmd.ofCode_of_unknown {c code : Byte} {p : Nat → Word} (h : Cmd.ofCode c p = .unknown code) (q : Nat → Word) :
    Cmd.ofCode code q = .unknown code := by
  unfold Cmd.ofCode at h
  split at h
  case h_3 => exact absurd h (Cmd.ofWrite_ne_unknown p code)
  case h_4 => exact absurd h (Cmd.ofRead_ne_unknown p code)
  case h_14 => split at h <;> cases h
  case h_17 => split at h <;> cases h
  case h_20 =>
    obtain rfl := Cmd.unknown.inj h
    unfold Cmd.ofCode
    split
    case h_20 => rfl
    all_goals contradiction
  all_goals cases h

theorem Device.handOff_congr {d : Device} {tag : Byte} {c c' : Cmd} (hc : c ≠ .softReset) (hc' : c' ≠ .softReset) (hr : d.reply tag c' = d.reply tag c)
    (hcode : c'.code = c.code) (ht : c'.takenUnconfigured = c.takenUnconfigured) : d.handOff tag c' = d.handOff tag c := by
  unfold Device.handOff
  rw [if_neg hc, if_neg hc']
  unfold Device.execute Device.refusesByPart
  rw [hr, hcode, ht]

/-- R179, R184: the row of a command is its hand-over. -/
theorem exec_row {tag : Byte} {c : Cmd} {i : Instr} (h : c.row tag = some i) (hu : ∀ code, c = .unknown code → Cmd.ofCode code (fun _ => 0) = c)
    (x : State) : exec i x = .next { x with dev := x.dev.handOff tag c } := by
  cases c
  case unknown code =>
    cases h
    show Host.Outcome.next { x with dev := x.dev.handOff tag (Cmd.ofCode code fun _ => 0) } = _
    rw [hu code rfl]
  case invalid => cases h
  case writeSlotMap r slot kind index =>
    obtain rfl := Option.some.inj h
    split
    · next hr =>
      subst hr
      exact congrArg (fun d : Device => Host.Outcome.next { x with dev := d })
        (Device.handOff_congr (c := .writeSlotMap 64 slot kind index) (c' := .writeSlotMap 64 slot kind 0) (by simp) (by simp) rfl rfl rfl)
    · rfl
  case writeCaptureConfig r mode decimation count packed =>
    obtain rfl := Option.some.inj h
    split
    · next hr =>
      subst hr
      exact congrArg (fun d : Device => Host.Outcome.next { x with dev := d })
        (Device.handOff_congr (c := .writeCaptureConfig 1 mode decimation count packed) (c' := .writeCaptureConfig 1 mode 0 0 (Vector.replicate 4 0))
          (by simp) (by simp) rfl rfl rfl)
    · rfl
  all_goals
    cases h
    rfl

/-- R184: only a command that names nothing is a row of none. -/
theorem Cmd.row_none_iff (tag : Byte) (c : Cmd) : c.row tag = none ↔ c = .invalid c.code := by
  cases c
  case invalid => exact ⟨fun _ => rfl, fun _ => rfl⟩
  all_goals exact ⟨fun h => (by cases h), fun h => (by cases h)⟩

/-- R174, R184, R190: such a command answers BAD_PARAM. -/
theorem Device.handOff_invalid {x : Device} (h : x.Free) (tag code : Byte) : x.handOff tag (.invalid code) = x.setResult .badParam tag code [] := by
  obtain ⟨ht, hf⟩ := h
  have hpart : x.refusesByPart (.invalid code) = false := Bool.and_false _
  unfold Device.handOff
  rw [ht, if_neg (by decide), if_neg Cmd.noConfusion, if_pos hf]
  unfold Device.execute
  rw [hpart, if_neg Bool.noConfusion]
  rfl

end Sys2Proof.Machine

/-! The end of a good frame, its command and what it leaves (O13). -/

namespace Sys2Proof.Machine

/-- R16, R179: the command that a completion hands over is the one that the command area spells for this node. -/
theorem Device.stagedCommand_iff {d : Device} {s : Staging} {tag : Byte} {cmd : Cmd} : d.stagedCommand s = some (tag, cmd) ↔
    ∃ (node code third : Word) (rest : List Word), s.command = node :: code :: third :: rest ∧ node = d.mailbox.nodeAddress.setWidth 16
      ∧ d.mailbox.nodeAddress ≠ 0 ∧ tag = lowByte third ∧ cmd = Cmd.ofCode (lowByte code) fun i => rest.getD i 0 := by
  unfold Device.stagedCommand
  split
  · next node code third rest harea =>
    have hwords : paramOf s.command = fun i => rest.getD i 0 := funext fun i => by
      unfold paramOf
      rw [harea, Nat.add_comm]
      rfl
    rw [hwords]
    constructor
    · intro h
      split at h
      · next hn =>
        obtain ⟨rfl, rfl⟩ := Prod.mk.inj (Option.some.inj h)
        exact ⟨node, code, third, rest, harea, hn.1, hn.2, rfl, rfl⟩
      · cases h
    · rintro ⟨node', code', third', rest', harea', hn, h0, rfl, rfl⟩
      rw [harea] at harea'
      injection harea' with h1 h2
      injection h2 with h2 h3
      injection h3 with h3 h4
      subst h1 h2 h3 h4
      exact if_pos ⟨hn, h0⟩
  · next hno =>
    refine ⟨fun h => (by cases h), ?_⟩
    rintro ⟨node, code, third, rest, harea, -⟩
    exact absurd harea (hno node code third rest)

theorem Device.stagedCommand_none_iff {d : Device} {s : Staging} : d.stagedCommand s = none ↔ ∀ tag cmd, d.stagedCommand s ≠ some (tag, cmd) := by
  cases d.stagedCommand s with
  | none => exact ⟨fun _ _ _ h => (by cases h), fun _ => rfl⟩
  | some c => exact ⟨fun h => (by cases h), fun h => absurd rfl (h c.1 c.2)⟩

/-- A good end of a frame is the moment of its deliveries and of its command. -/
theorem Device.endFrame_good {d : Device} {loss : Bool} (hr : d.lines.rstn = true) (hg : d.GoodEnd loss) :
    d.endFrame loss = (d.closeFrame true).runRoots (Device.handStaged ((d.closeFrame true).stagedCommand d.port.frame.staging))
      ((d.closeFrame true).goodRoots d.port.frame.staging ((d.closeFrame true).stagedCommand d.port.frame.staging)) := by
  obtain ⟨n, hp, -⟩ := id hg
  rw [Device.endFrame_completes hr (.inr ⟨n, hp⟩), (d.endsGood_iff loss).mpr hg, d.complete_good]

section
variable {d0 before t : Device} {s : Staging} {command : Option (Byte × Cmd)}

/-- R19: what a good completion leaves of the link, whatever its command. -/
theorem Completed.link (h : Completed d0 s command before t) :
    t.port.link = .locked ∧ t.port.badRun = 0 ∧ t.port.timeoutCountdown = d0.port.timeoutCountdown := by
  obtain ⟨-, hlink, hrun, hcountdown, -⟩ := h.delivered.locks
  cases hc : command with
  | none =>
    rw [h.bare hc]
    exact ⟨hlink, hrun, hcountdown⟩
  | some c =>
    obtain ⟨h1, h2, h3⟩ := before.handOff_link (tag := c.1) (c := c.2)
    rw [h.port c hc]
    exact ⟨h1.trans hlink, h2.trans hrun, h3.trans hcountdown⟩

/-- R14: and of the count, where the command is not SOFT_RESET. -/
theorem Completed.cycleCount (h : Completed d0 s command before t) {c : Byte × Cmd} (hc : command = some c) (hs : c.2 ≠ .softReset) :
    t.port.cycleCount = d0.port.cycleCount := by
  rw [h.port c hc, Device.handOff_port hs]
  exact h.delivered.locks.1

end

/-- R107, R119: no CYCLE unit, and no command that writes one: no clock comes with the completion. -/
theorem Device.cycleRoots_nil {d : Device} {c : Byte × Cmd} (hk : ∀ k : Fin 6, d.timers[k].clock ≠ .cycle) (hw : c.2.writesTimer = false) :
    d.cycleRoots (some c) = [] := by
  unfold Device.cycleRoots Device.clockRoots
  rw [Option.any_some, hw, if_neg (by simp), List.map_eq_nil_iff, List.filter_eq_nil_iff]
  intro k _ hc
  exact hk k (beq_iff_eq.mp hc)

/-- R170: a buffer that is idle or frozen, and a command that does not start it: no recording comes with the completion. -/
theorem Device.recordRoots_nil {d : Device} {c : Byte × Cmd} (hq : d.capture.state = .idle ∨ d.capture.state = .frozen) (hc : c.2.code ≠ 14) :
    d.recordRoots true (some c) = [] := by
  unfold Device.recordRoots
  refine if_neg fun h => ?_
  rcases (Bool.or_eq_true _ _).mp h with h | h
  · rcases hq with hq | hq <;> rw [hq] at h <;> cases h
  · exact hc (beq_iff_eq.mp h)

end Sys2Proof.Machine

/-! Settles O13. -/

namespace Sys2Proof.Machine

/-- Settles O13: the deliveries, the units, the record and the command, each followed through the moment of the completion. -/
theorem goodFrameDeliversWhatItStaged : Obligations.GoodFrameDeliversWhatItStaged := by
  intro skipped loss s d g good staged delivers nothingElse updates hr hgood
  obtain ⟨before, hcomp⟩ := (d.closeFrame true).goodCompletion g ((d.closeFrame true).stagedCommand g)
  have hend : d.endFrame loss = (d.closeFrame true).runRoots (Device.handStaged ((d.closeFrame true).stagedCommand g))
      ((d.closeFrame true).goodRoots g ((d.closeFrame true).stagedCommand g)) := Device.endFrame_good hr hgood
  have hstaged : ∀ {tag cmd}, staged tag cmd → (d.closeFrame true).stagedCommand g = some (tag, cmd) := fun h => Device.stagedCommand_iff.mpr h
  have hnone : (∀ tag cmd, ¬staged tag cmd) → (d.closeFrame true).stagedCommand g = none := fun h =>
    Device.stagedCommand_none_iff.mpr fun tag cmd hc => h tag cmd (Device.stagedCommand_iff.mp hc)
  have helse : nothingElse → (d.closeFrame true).NothingElse g := fun ⟨hu, hb, hq⟩ => ⟨hu.congr ⟨rfl, fun _ => rfl⟩, hb, hq⟩
  have hdel := hcomp.delivered
  obtain ⟨hlink, hrun, hcountdown⟩ := hcomp.link
  refine ⟨{ s with dev := d.endFrame loss }, { s with dev := before }, exec_cycleCompletion skipped loss s, ?_, fun hn => ?_, fun hc k hk hin => ?_,
    fun hn hno h0 hq => ?_, ?_, ?_, ?_, fun hno => ?_, fun tag cmd hs => ?_⟩
  · obtain ⟨hcount, hlocked, hzero, hreload, hsearching, hlost, hstands⟩ := hdel.locks
    have hcontrol := hdel.control
    have hword := hdel.breakWord
    refine ⟨hcount, hlocked, hzero, hsearching, hlost, hstands, hreload, congrArg FramePassage.staging hdel.frame,
      congrArg FramePassage.passage hdel.frame, ?_, ?_, ?_, ?_, fun c => ?_, ?_, hdel.mailbox⟩
    · split
      · next w hw => rw [hw] at hcontrol; exact (Prod.mk.inj hcontrol).1
      · next hw => rw [hw] at hcontrol; exact (Prod.mk.inj hcontrol).1
    · split
      · next w hw => rw [hw] at hcontrol; exact (Prod.mk.inj hcontrol).2
      · next hw => rw [hw] at hcontrol; exact (Prod.mk.inj hcontrol).2
    · split
      · next w hw => rw [hw] at hword; exact (Prod.mk.inj hword).1
      · next hw => rw [hw] at hword; exact (Prod.mk.inj hword).1
    · split
      · next w hw => rw [hw] at hword; exact (Prod.mk.inj hword).2
      · next hw => rw [hw] at hword; exact (Prod.mk.inj hword).2
    · refine (hdel.channels c).trans ?_
      unfold Staging.sampled
      split
      · next w hw => rw [hw]; rfl
      · next hw => rw [hw]; rfl
    · refine hdel.speed.trans ?_
      lift_lets
      intro c
      split
      · next w hw =>
        split
        · next hf => exact Speed.follows_fault c d.speed (hf ▸ hw)
        · next hf => exact Speed.follows_sample c d.speed hw hf
      · next hw => exact Speed.follows_none c d.speed hw
  · intro z w x fed hw hne
    exact ⟨fun hm => hdel.update (helse hn) hw hne hm, fun hm hv hdem => hdel.updateResumed (helse hn) hw hne hm hv hdem⟩
  · have hunit : ∀ b, d.timers[k].hold = .fixed b → (d.endFrame loss).timers[k] = d.timers[k].clocked b := fun b hh => by
      rw [hend]
      exact (d.closeFrame true).goodCompletion_unit g (fun c hc' => hc c.1 c.2 (Device.stagedCommand_iff.mp hc')) hk hin hh
    exact ⟨hunit false, hunit true⟩
  · have hbefore : d.endFrame loss = before := hend.trans (hcomp.bare (hnone hno))
    have hrec := Device.goodCompletion_records (helse hn) ((CaptureState.recording_iff _).mpr hq) h0
    have hmoment : (d.closeFrame true).runRoots id ((d.closeFrame true).goodRoots g none) = before := by
      have hbare := hcomp.bare (hnone hno)
      rwa [hnone hno, Device.handStaged_none] at hbare
    rw [hmoment] at hrec
    exact ⟨(d.closeFrame true).recordOf before, (congrArg (fun e : Device => e.capture.records) hbefore).trans hrec, rfl, rfl, rfl, rfl, rfl⟩
  · exact (congrArg (fun e : Device => e.port.link) hend).trans hlink
  · exact (congrArg (fun e : Device => e.port.badRun) hend).trans hrun
  · exact (congrArg (fun e : Device => e.port.timeoutCountdown) hend).trans hcountdown
  · exact congrArg (fun e : Device => ({ s with dev := e } : State)) (hend.trans (hcomp.bare (hnone hno)))
  · intro taken
    have hcommand := hstaged hs
    refine ⟨fun hk hw hq hcode => ?_, fun i hi x => ?_, cmd.row_none_iff tag, fun code hc x hx => ?_, fun hm => ?_, fun hr => ?_⟩
    · refine congrArg (fun e : Device => ({ s with dev := e } : State)) (hend.trans (hcomp.alone (tag, cmd) hcommand ?_ ?_))
      · rw [hcommand]
        exact Device.cycleRoots_nil hk hw
      · rw [hcommand]
        exact Device.recordRoots_nil hq hcode
    · obtain ⟨_, _, _, _, -, -, -, -, hcmd⟩ := hs
      exact exec_row hi (fun code he => (Cmd.ofCode_of_unknown (hcmd ▸ he) _).trans he.symm) x
    · rw [hc]
      exact Device.handOff_invalid hx tag code
    · exact (congrArg Device.mailbox hend).trans (hcomp.mailbox (tag, cmd) hcommand hm)
    · exact (congrArg (fun e : Device => e.port.cycleCount) hend).trans (hcomp.cycleCount hcommand hr)

end Sys2Proof.Machine

/-! A sample at a channel (O52): the sensors' fault code, the scaling, the filter and the comparators. -/

namespace Sys2Proof.Machine

/-! ## The fault code -/

theorem Channel.takeSample_sensorFault (x : Channel) : x.takeSample sensorFault = { x with raw := -32768 }.fail 1 := by
  unfold Channel.takeSample
  rw [if_pos rfl]
  rfl

theorem Channel.fail_of_failed {x : Channel} (h : x.validity = .failed) (cause : Word) : x.fail cause = (x, []) := if_pos h

theorem Channel.fail_limited (x : Channel) (cause : Word) : (x.fail cause).1.limited = x.limited := by
  unfold Channel.fail
  split <;> rfl

/-- R40: a channel that becomes FAILED takes the failure level at both comparators, and tells of the failure first. -/
theorem Channel.fail_levels {x : Channel} (h : x.validity ≠ .failed) (cause : Word) :
    (x.fail cause).1.hiSet = x.failLevel ∧ (x.fail cause).1.loSet = x.failLevel
      ∧ (x.fail cause).2.head? = some (.channelFailed, cause) := by
  unfold Channel.fail
  rw [if_neg h]
  exact ⟨rfl, rfl, rfl⟩

/-! ## The filter -/

theorem Channel.seeds_iff (x : Channel) : x.seeds = true ↔ x.validity = .none ∨ x.validity = .failed := by
  rw [Channel.seeds, Bool.or_eq_true, beq_iff_eq, beq_iff_eq]

theorem clamp_bounds {lo hi : Int} (h : lo ≤ hi) (v : Int) : lo ≤ clamp lo hi v ∧ clamp lo hi v ≤ hi := by
  unfold clamp
  split
  · omega
  · split <;> omega

/-- R32: alpha/256 of a distance lies between 0 and the distance. -/
theorem tdiv_fraction_le {a e : Int} (h1 : 1 ≤ a) (h2 : a ≤ 256) (he : 0 ≤ e) : 0 ≤ (e * a).tdiv 256 ∧ (e * a).tdiv 256 ≤ e := by
  have hnonneg : 0 ≤ e * a := Int.mul_nonneg he (by omega)
  have hle : e * a ≤ e * 256 := Int.mul_le_mul_of_nonneg_left h2 he
  rw [Int.tdiv_eq_ediv_of_nonneg hnonneg]
  omega

/-- R32: the step of the filter ends between where it starts and what it moves toward. -/
theorem tdiv_fraction_between {a : Int} (h1 : 1 ≤ a) (h2 : a ≤ 256) (f v : Int) :
    min f v ≤ f + ((v - f) * a).tdiv 256 ∧ f + ((v - f) * a).tdiv 256 ≤ max f v := by
  rcases Int.le_total f v with hv | hv
  · have := tdiv_fraction_le h1 h2 (Int.sub_nonneg_of_le hv)
    omega
  · have := tdiv_fraction_le h1 h2 (Int.sub_nonneg_of_le hv)
    have hneg : ((v - f) * a).tdiv 256 = -((f - v) * a).tdiv 256 := by rw [← Int.neg_tdiv, ← Int.neg_mul, Int.neg_sub]
    omega

theorem Channel.filter_bounds {x : Channel} (h1 : 1 ≤ x.alpha) (h2 : x.alpha ≤ 256) {v : Int} (hv : x.lo ≤ v ∧ v ≤ x.hi)
    (hf : x.seeds = true ∨ (x.lo ≤ x.filtered ∧ x.filtered ≤ x.hi)) : x.lo ≤ x.filter v ∧ x.filter v ≤ x.hi := by
  unfold Channel.filter
  split
  · exact hv
  · next hs =>
    have hf := hf.resolve_left hs
    have := tdiv_fraction_between h1 h2 x.filtered v
    omega

/-! ## The comparators and the events -/

theorem Channel.nextHi_eq (x : Channel) (f : Int) :
    x.nextHi f = if x.hiLimit ≤ f then true else if x.seeds = true ∨ f < x.hiLimit - x.hyst then false else x.hiSet := by
  simp only [Channel.nextHi, Bool.or_eq_true, decide_eq_true_eq]

theorem Channel.nextLo_eq (x : Channel) (f : Int) :
    x.nextLo f = if f ≤ x.loLimit then true else if x.seeds = true ∨ x.loLimit + x.hyst < f then false else x.loSet := by
  simp only [Channel.nextLo, Bool.or_eq_true, decide_eq_true_eq]

/-- R34: what new comparator levels raise. -/
def Channel.levelEvents (x : Channel) (hi lo : Bool) : List (EventKind × Word) :=
  (if hi ≠ x.hiSet ∧ x.enableHi = true then [(.channelHi, boolWord hi)] else [])
    ++ (if lo ≠ x.loSet ∧ x.enableLo = true then [(.channelLo, boolWord lo)] else [])

theorem Channel.takeComparators_eq (x : Channel) (hi lo : Bool) :
    x.takeComparators hi lo = ({ x with hiSet := hi, loSet := lo }, x.levelEvents hi lo) := by
  simp only [Channel.takeComparators, Channel.levelEvents, Bool.and_eq_true, bne_iff_ne, ne_comm (a := hi), ne_comm (a := lo)]

theorem Channel.freshEvents_eq (x : Channel) : x.freshEvents =
    if x.validity = .failed then [(.channelFresh, 3)]
    else if x.validity = .stale ∧ x.enableStale = true then [(.channelFresh, 2)] else [] := by
  unfold Channel.freshEvents
  cases x.validity <;> simp

/-! ## A sample other than the fault code -/

theorem Channel.takeSample_analog {x : Channel} {w : Word} (hw : w ≠ sensorFault) (hk : x.kind ≠ .discrete) :
    let v := clamp x.lo x.hi (x.scale w.toInt)
    let f := x.filter v
    x.takeSample w = ({ x with
      raw := w.toInt, value := v, limited := decide (v ≠ x.scale w.toInt), filtered := f, age := 0, validity := .fresh
      hiSet := x.nextHi f, loSet := x.nextLo f }, x.freshEvents ++ x.levelEvents (x.nextHi f) (x.nextLo f)) := by
  have hlimited : ∀ v u : Int, (v != u) = decide (v ≠ u) := fun v u => Bool.eq_iff_iff.mpr (by rw [bne_iff_ne, decide_eq_true_iff])
  unfold Channel.takeSample
  rw [if_neg hw, if_neg hk]
  unfold Channel.takeAnalog
  simp only [Channel.takeComparators_eq, hlimited]
  rfl

theorem Channel.takeSample_discrete {x : Channel} {w : Word} (hw : w ≠ sensorFault) (hk : x.kind = .discrete) :
    let v : Int := if w = 0 then 0 else 1
    x.takeSample w = ({ x with
      raw := w.toInt, value := v, filtered := v, limited := false, age := 0, validity := .fresh, hiSet := false, loSet := false },
      x.freshEvents) := by
  have hzero : (signed w = 0) = (w = 0) := by
    rw [signed, ← BitVec.toInt_zero (w := 16), BitVec.toInt_inj]
    rfl
  unfold Channel.takeSample
  rw [if_neg hw, if_pos hk]
  unfold Channel.takeDiscrete
  simp only [hzero]
  rfl

/-- Settles O52, by the kind of sample: the fault code, one on an analog channel, one on a DISCRETE channel. -/
theorem sampleIsScaledFilteredAndCompared : Obligations.SampleIsScaledFilteredAndCompared := by
  intro x w y seeds
  have hseeds : x.seeds = true ↔ seeds := x.seeds_iff
  refine ⟨fun hw => ?_, fun hw hk => ?_, fun hw hk => congrArg Prod.fst (Channel.takeSample_discrete hw hk)⟩
  · have hy : x.takeSample w = { x with raw := -32768 }.fail 1 := hw ▸ x.takeSample_sensorFault
    obtain ⟨hvalidity, hage, hraw, hvalue, hfiltered⟩ := Channel.fail_frame { x with raw := -32768 } 1
    simp only [y, hy]
    refine ⟨hraw, hvalidity, hvalue, hfiltered, Channel.fail_limited _ 1, hage, fun hf => ?_, fun hf => ?_⟩
    · rw [Channel.fail_of_failed (x := { x with raw := -32768 }) hf]
      exact ⟨rfl, rfl⟩
    · rw [Bool.and_comm]
      exact Channel.fail_levels (x := { x with raw := -32768 }) hf 1
  · intro unclamped v f
    have hv : clamp x.lo x.hi (x.scale w.toInt) = v := rfl
    have hf : x.filter v = f := by
      simp only [Channel.filter, hseeds, f]
    have hsample := Channel.takeSample_analog hw hk
    simp only [hv, hf] at hsample
    refine ⟨?_, fun hlo h1 h2 hfiltered => ?_, ?_⟩
    · simp only [y, hsample, Channel.nextHi_eq, Channel.nextLo_eq, hseeds]
      rfl
    · have hy : y.filtered = x.filter v := (congrArg (fun r : ChannelChange => r.1.filtered) hsample).trans hf.symm
      rw [hy]
      exact x.filter_bounds h1 h2 (clamp_bounds hlo _) (hfiltered.imp_left hseeds.mpr)
    · simp only [y, hsample, Channel.freshEvents_eq, Channel.levelEvents, List.append_assoc]

end Sys2Proof.Machine

/-! The writes of the two parts of a channel record (O27, O28). -/

namespace Sys2Proof.Machine

/-! ## Words of the parts -/

theorem ChannelKind.ofCode_of_eq {w : Word} {k : ChannelKind} (h : w.toNat = k.code) : ChannelKind.ofCode w = some k := by
  unfold ChannelKind.ofCode
  rw [h]
  cases k <;> rfl

theorem ChannelKind.ofCode_of_le {w : Word} (h : 4 ≤ w.toNat) : ChannelKind.ofCode w = none := by
  unfold ChannelKind.ofCode
  split
  any_goals omega
  rfl

theorem yesNo_of_eq {w : Word} {f : Bool} (h : w = if f = true then 1 else 0) : yesNo w = some f := by
  subst h
  cases f <;> rfl

theorem yesNo_of_lt {w : Word} (h : 1 < w.toNat) : yesNo w = none := by
  rcases yesNo_cases w with ⟨rfl, -⟩ | ⟨rfl, -⟩ | ⟨-, hn⟩
  · exact absurd h (by decide)
  · exact absurd h (by decide)
  · exact hn

theorem inRange_iff (lo hi x : Int) : inRange lo hi x = true ↔ lo ≤ x ∧ x ≤ hi := by
  rw [inRange, Bool.and_eq_true, decide_eq_true_iff, decide_eq_true_iff]

/-- R26: of the signed words only −32768 lies outside −32767..32767. -/
theorem inRange_signed_iff (w : Word) : inRange (-32767) 32767 (signed w) = true ↔ w ≠ 0x8000 := by
  have hlow : signed w = -32768 ↔ w = 0x8000 := BitVec.toInt_inj (x := w) (y := 0x8000)
  have hge : -32768 ≤ signed w := BitVec.le_toInt w
  have hlt : signed w < 32768 := BitVec.toInt_lt
  rw [inRange_iff, ne_eq, ← hlow]
  omega

/-! ## Part SCALE -/

/-- R26: the ranges of the SCALE fields; a DISCRETE record checks none of them. -/
theorem scaleInRange_iff (k : ChannelKind) (gain offset lo hi alpha : Word) :
    scaleInRange k (signed gain) (signed offset) (signed lo) (signed hi) (unsigned alpha) = true ↔
      ∀ kl kh : Int, k.limits = some (kl, kh) →
        gain ≠ 0x8000 ∧ offset ≠ 0x8000 ∧ 1 ≤ alpha.toNat ∧ alpha.toNat ≤ 256 ∧ kl ≤ lo.toInt ∧ lo.toInt ≤ hi.toInt ∧ hi.toInt ≤ kh := by
  unfold scaleInRange
  cases k.limits with
  | none => simp
  | some l =>
    obtain ⟨kl, kh⟩ := l
    have halpha : inRange 1 256 (unsigned alpha) = true ↔ 1 ≤ alpha.toNat ∧ alpha.toNat ≤ 256 := inRange_unsigned 1 256 alpha
    simp only [Bool.and_eq_true, inRange_signed_iff, halpha, inRange_iff kl kh, decide_eq_true_eq]
    constructor
    · rintro ⟨⟨⟨⟨⟨hg, ho⟩, ha1, ha2⟩, hl, -⟩, -, hh⟩, hlh⟩ _ _ ⟨⟩
      exact ⟨hg, ho, ha1, ha2, hl, hlh, hh⟩
    · intro h
      obtain ⟨hg, ho, ha1, ha2, hl, hlh, hh⟩ := h kl kh rfl
      exact ⟨⟨⟨⟨⟨hg, ho⟩, ha1, ha2⟩, hl, hlh.trans hh⟩, hl.trans hlh, hh⟩, hlh⟩

/-- R26: the record with the SCALE fields but its kind replaced; for DISCRETE they stand. -/
def Channel.rescaled (x : Channel) (k : ChannelKind) (gain offset lo hi alpha : Int) : Channel :=
  if k = .discrete then x else { x with gain := gain, offset := offset, lo := lo, hi := hi, alpha := alpha }

theorem Channel.writeScale_kind {x : Channel} {k : ChannelKind} (h : x.kind = k) (gain offset lo hi alpha : Int) :
    x.writeScale k gain offset lo hi alpha = x.rescaled k gain offset lo hi alpha := by
  unfold Channel.writeScale Channel.rescaled
  rw [if_pos h]
  subst h
  rfl

theorem Channel.writeScale_newKind {x : Channel} {k : ChannelKind} (h : x.kind ≠ k) (gain offset lo hi alpha : Int) :
    x.writeScale k gain offset lo hi alpha = { x.rescaled k gain offset lo hi alpha with
      kind := k, hiLimit := k.limit x.hiLimit, loLimit := k.limit x.loLimit, validity := .none, value := 0, filtered := 0, age := 0
      hiSet := false, loSet := false, limited := false } := by
  unfold Channel.writeScale Channel.rescaled
  rw [if_neg h]
  split <;> rfl

theorem Device.replyWriteChannelScale_invalid (d : Device) {record : Byte} {kind : Word} (h : 32 ≤ record.toNat ∨ 4 ≤ kind.toNat)
    (gain offset lo hi alpha : Word) : d.replyWriteChannelScale record kind gain offset lo hi alpha = .badParam := by
  unfold Device.replyWriteChannelScale
  rcases h with h | h
  · rw [recordIndex_of_le h]
  · rw [ChannelKind.ofCode_of_le h]
    cases recordIndex 32 record <;> rfl

/-- R26: the refusals of a SCALE write in their order, and its two effects. -/
theorem Device.replyWriteChannelScale_of_eq (d : Device) {record : Byte} {kind : Word} {c : Fin 32} {k : ChannelKind}
    (hc : record.toNat = c.val) (hk : kind.toNat = k.code) (gain offset lo hi alpha : Word) :
    d.replyWriteChannelScale record kind gain offset lo hi alpha =
      if scaleInRange k (signed gain) (signed offset) (signed lo) (signed hi) (unsigned alpha) = true then
        let x := d.channels[c]
        let y := x.writeScale k (signed gain) (signed offset) (signed lo) (signed hi) (unsigned alpha)
        if x.kind = k then .store (d.setChannel c y) []
        else if d.mailbox.ready = true then .refused []
        else .settled (d.changeChannel c y (if x.validity = .none then [] else [.none])) fun _ => []
      else .badParam := by
  unfold Device.replyWriteChannelScale
  rw [recordIndex_of_eq hc, ChannelKind.ofCode_of_eq hk]

/-- R26, R36, R49: who sees a channel lose its validity to a new kind. -/
theorem validityJobs_newKind (d : Device) (c : Fin 32) (old : Validity) :
    validityJobs d c old (if old = .none then [] else [.none]) =
      (if c = d.speed.speedChannel ∧ old = .fresh then [.speedLoss] else [])
        ++ if old = .none then []
          else ((List.finRange 12).filter fun z => d.zones[z].measChannel == c).map fun z => .zoneValidity z .none := by
  unfold validityJobs
  cases old <;> simp

/-- Settles O27, refusal by refusal in the order of the rule, then by the kind. -/
theorem scaleWriteReplacesTheScaleFields : Obligations.ScaleWriteReplacesTheScaleFields := by
  intro tag record kind gain offset lo hi alpha s hf d writes
  have answers : ∀ {rc ws}, d.replyWriteChannelScale record kind gain offset lo hi alpha = .answer rc ws → Answers writes s tag 3 rc ws :=
    fun h => answers_of (c := .writeChannelScale record kind gain offset lo hi alpha) rfl hf (by simp) rfl (.inr rfl) h
  refine ⟨fun h => answers (d.replyWriteChannelScale_invalid h gain offset lo hi alpha), fun c k hc hk => ?_⟩
  intro x fits scaled bounded y
  have hfits : _ ↔ fits := scaleInRange_iff k gain offset lo hi alpha
  have hreply := d.replyWriteChannelScale_of_eq hc hk gain offset lo hi alpha
  refine ⟨fun h => answers ?_, fun h hkind => ?_, fun h hkind hr => answers ?_, fun h hkind hr => ?_⟩
  · exact hreply.trans (if_neg (mt hfits.mp h))
  · refine leaves_of (c := .writeChannelScale record kind gain offset lo hi alpha) rfl hf (by simp) rfl (.inr rfl) ?_
    have hwrite : x.writeScale k (signed gain) (signed offset) (signed lo) (signed hi) (unsigned alpha) = scaled :=
      Channel.writeScale_kind hkind _ _ _ _ _
    exact ((hreply.trans (if_pos (hfits.mpr h))).trans (if_pos hkind)).trans (congrArg (fun v => Reply.store (d.setChannel c v) []) hwrite)
  · exact ((hreply.trans (if_pos (hfits.mpr h))).trans (if_neg hkind)).trans (if_pos hr)
  · refine settles_of (c := .writeChannelScale record kind gain offset lo hi alpha) rfl hf (by simp) rfl (.inr rfl) ?_
    have hwrite : x.writeScale k (signed gain) (signed offset) (signed lo) (signed hi) (unsigned alpha) = y :=
      Channel.writeScale_newKind hkind _ _ _ _ _
    refine (((hreply.trans (if_pos (hfits.mpr h))).trans (if_neg hkind)).trans (if_neg (by rw [hr]; decide))).trans ?_
    refine congrArg (fun e : Effect => Reply.settled e fun _ => []) ?_
    unfold Device.changeChannel
    rw [validityJobs_newKind, hwrite]

/-! ## Part LIMITS -/

/-- R27: the ranges of the LIMITS fields, for the record's kind. -/
theorem Channel.limitsInRange_iff (x : Channel) (stale fail hiLimit loLimit hyst : Word) :
    x.limitsInRange (unsigned stale) (unsigned fail) (signed hiLimit) (signed loLimit) (unsigned hyst) = true ↔
      1 ≤ stale.toNat ∧ stale.toNat ≤ fail.toNat ∧ hyst.toNat ≤ 500
        ∧ ∀ kl kh : Int, x.kind.limits = some (kl, kh) →
            kl ≤ hiLimit.toInt ∧ hiLimit.toInt ≤ kh ∧ kl ≤ loLimit.toInt ∧ loLimit.toInt ≤ kh := by
  have hs : inRange 1 65535 (unsigned stale) = true ↔ 1 ≤ stale.toNat ∧ stale.toNat ≤ 65535 := inRange_unsigned 1 65535 stale
  have hl : inRange 1 65535 (unsigned fail) = true ↔ 1 ≤ fail.toNat ∧ fail.toNat ≤ 65535 := inRange_unsigned 1 65535 fail
  have hle : unsigned stale ≤ unsigned fail ↔ stale.toNat ≤ fail.toNat := Int.ofNat_le
  have hhyst : unsigned hyst ≤ 500 ↔ hyst.toNat ≤ 500 := Int.ofNat_le (n := 500)
  have hstale : stale.toNat < 65536 := stale.isLt
  have hfail : fail.toNat < 65536 := fail.isLt
  unfold Channel.limitsInRange
  simp only [Bool.and_eq_true, hs, hl, decide_eq_true_eq, hle, hhyst]
  cases x.kind.limits with
  | none =>
    simp only [reduceCtorEq, false_implies, implies_true, and_true]
    omega
  | some l =>
    obtain ⟨kl, kh⟩ := l
    simp only [Bool.and_eq_true, inRange_iff]
    constructor
    · rintro ⟨⟨⟨⟨⟨h1, -⟩, -⟩, h2⟩, h3⟩, ⟨h4, h5⟩, h6, h7⟩
      exact ⟨h1, h2, h3, by rintro _ _ ⟨⟩; exact ⟨h4, h5, h6, h7⟩⟩
    · rintro ⟨h1, h2, h3, h⟩
      obtain ⟨h4, h5, h6, h7⟩ := h kl kh rfl
      exact ⟨⟨⟨⟨⟨h1, by omega⟩, by omega, by omega⟩, h2⟩, h3⟩, ⟨h4, h5⟩, h6, h7⟩

theorem Device.replyWriteChannelLimits_invalid (d : Device) {record : Byte} {failState : Word} (h : 32 ≤ record.toNat ∨ 1 < failState.toNat)
    (stale fail hiLimit loLimit hyst enables : Word) :
    d.replyWriteChannelLimits record stale fail hiLimit loLimit hyst failState enables = .badParam := by
  unfold Device.replyWriteChannelLimits
  rcases h with h | h
  · rw [recordIndex_of_le h]
  · rw [yesNo_of_lt h]
    cases recordIndex 32 record <;> rfl

/-- R27: the refusal of a LIMITS write, and its two effects. -/
theorem Device.replyWriteChannelLimits_of_eq (d : Device) {record : Byte} {failState : Word} {c : Fin 32} {f : Bool}
    (hc : record.toNat = c.val) (hs : failState = if f = true then 1 else 0) (stale fail hiLimit loLimit hyst enables : Word) :
    d.replyWriteChannelLimits record stale fail hiLimit loLimit hyst failState enables =
      let x := d.channels[c]
      if x.limitsInRange (unsigned stale) (unsigned fail) (signed hiLimit) (signed loLimit) (unsigned hyst) = true then
        let r := x.writeLimits stale.toNat fail.toNat (signed hiLimit) (signed loLimit) (unsigned hyst) f enables
        if x.validity = .failed ∧ x.failState ≠ f then .settled { dev := (d.setChannel c r.1).raiseAll c.val r.2 } fun _ => []
        else .store (d.setChannel c r.1) []
      else .badParam := by
  unfold Device.replyWriteChannelLimits
  rw [recordIndex_of_eq hc, yesNo_of_eq hs]

/-- R27: the record with the LIMITS fields replaced. -/
def Channel.relimited (x : Channel) (stale fail : Nat) (hiLimit loLimit hyst : Int) (f : Bool) (enables : Word) : Channel :=
  { x with
    staleLimit := stale, failLimit := fail, hiLimit := hiLimit, loLimit := loLimit, hyst := hyst, failState := f
    enableHi := enables.getLsbD 0, enableLo := enables.getLsbD 1, enableStale := enables.getLsbD 2 }

theorem Channel.writeLimits_stands {x : Channel} {f : Bool} (h : ¬(x.validity = .failed ∧ x.failState ≠ f)) (stale fail : Nat)
    (hiLimit loLimit hyst : Int) (enables : Word) :
    x.writeLimits stale fail hiLimit loLimit hyst f enables = (x.relimited stale fail hiLimit loLimit hyst f enables, []) := if_neg h

/-- R35, R40: the failure level of a channel with the LIMITS fields replaced. -/
theorem Channel.relimited_failLevel (x : Channel) (stale fail : Nat) (hiLimit loLimit hyst : Int) (f : Bool) (enables : Word) :
    (x.relimited stale fail hiLimit loLimit hyst f enables).failLevel = if x.kind = .discrete then false else f := by
  unfold Channel.failLevel Channel.relimited
  cases x.kind <;> rfl

/-- R40: a new failState at a FAILED channel, with the events of the enables as written. -/
theorem Channel.writeLimits_acts {x : Channel} {f : Bool} (h : x.validity = .failed ∧ x.failState ≠ f) (stale fail : Nat)
    (hiLimit loLimit hyst : Int) (enables : Word) :
    let y := x.relimited stale fail hiLimit loLimit hyst f enables
    let level := if x.kind = .discrete then false else f
    x.writeLimits stale fail hiLimit loLimit hyst f enables = ({ y with hiSet := level, loSet := level }, y.levelEvents level level) := by
  intro y level
  have hlevel : y.failLevel = level := x.relimited_failLevel stale fail hiLimit loLimit hyst f enables
  refine (if_pos h).trans ?_
  exact (y.takeComparators_eq y.failLevel y.failLevel).trans (by rw [hlevel])

/-- Settles O28: the refusals, then by whether the write acts on a FAILED channel. -/
theorem limitsWriteReplacesTheLimitFields : Obligations.LimitsWriteReplacesTheLimitFields := by
  intro tag record stale fail hiLimit loLimit hyst failState enables s hf d writes
  have answers : ∀ {rc ws}, d.replyWriteChannelLimits record stale fail hiLimit loLimit hyst failState enables = .answer rc ws →
      Answers writes s tag 3 rc ws :=
    fun h => answers_of (c := .writeChannelLimits record stale fail hiLimit loLimit hyst failState enables) rfl hf (by simp) rfl (.inr rfl) h
  refine ⟨fun h => answers (d.replyWriteChannelLimits_invalid h stale fail hiLimit loLimit hyst enables), fun c f hc hs => ?_⟩
  intro x fits y level events
  have hfits : _ ↔ fits := x.limitsInRange_iff stale fail hiLimit loLimit hyst
  have hreply := d.replyWriteChannelLimits_of_eq hc hs stale fail hiLimit loLimit hyst enables
  refine ⟨fun h => answers ?_, fun h hstands => ?_, fun h hfailed hnew => ?_⟩
  · exact hreply.trans (if_neg (mt hfits.mp h))
  · have hstands : ¬(x.validity = .failed ∧ x.failState ≠ f) := fun hn => hstands.elim (absurd hn.1) hn.2
    have hwrite := Channel.writeLimits_stands hstands stale.toNat fail.toNat (signed hiLimit) (signed loLimit) (unsigned hyst) enables
    refine leaves_of (c := .writeChannelLimits record stale fail hiLimit loLimit hyst failState enables) rfl hf (by simp) rfl (.inr rfl) ?_
    exact ((hreply.trans (if_pos (hfits.mpr h))).trans (if_neg hstands)).trans
      (congrArg (fun r : ChannelChange => Reply.store (d.setChannel c r.1) []) hwrite)
  · have hwrite := Channel.writeLimits_acts ⟨hfailed, hnew⟩ stale.toNat fail.toNat (signed hiLimit) (signed loLimit) (unsigned hyst) enables
    have hevents : y.levelEvents level level = events := by
      simp only [events, Channel.levelEvents, ne_comm (a := level)]
      rfl
    refine settles_of (c := .writeChannelLimits record stale fail hiLimit loLimit hyst failState enables) rfl hf (by simp) rfl (.inr rfl) ?_
    refine ((hreply.trans (if_pos (hfits.mpr h))).trans (if_pos ⟨hfailed, hnew⟩)).trans ?_
    rw [← hevents]
    exact congrArg (fun r : ChannelChange => Reply.settled { dev := (d.setChannel c r.1).raiseAll c.val r.2 } fun _ => []) hwrite

end Sys2Proof.Machine

/-! The words of the mailbox: condition addresses, command areas and codes (O24). -/

namespace Sys2Proof.Machine

/-! ## Two bytes in one word -/

theorem packBytes_toNat (h l : Byte) : (packBytes h l).toNat = 256 * h.toNat + l.toNat := by
  rw [packBytes, BitVec.toNat_append, ← Nat.shiftLeft_add_eq_or_of_lt l.isLt, Nat.shiftLeft_eq, Nat.mul_comm]

theorem highByte_toNat (w : Word) : (highByte w).toNat = w.toNat / 256 := by
  have hw : w.toNat < 65536 := w.isLt
  rw [highByte, BitVec.extractLsb'_toNat, Nat.shiftRight_eq_div_pow]
  omega

theorem lowByte_toNat (w : Word) : (lowByte w).toNat = w.toNat % 256 := by
  rw [lowByte, BitVec.extractLsb'_toNat, Nat.shiftRight_zero]

theorem highByte_packBytes (h l : Byte) : highByte (packBytes h l) = h := by
  have hl : l.toNat < 256 := l.isLt
  apply BitVec.eq_of_toNat_eq
  rw [highByte_toNat, packBytes_toNat]
  omega

theorem lowByte_packBytes (h l : Byte) : lowByte (packBytes h l) = l := by
  have hl : l.toNat < 256 := l.isLt
  apply BitVec.eq_of_toNat_eq
  rw [lowByte_toNat, packBytes_toNat]
  omega

/-! ## Condition addresses -/

theorem Cond.classCode_lt (c : Cond) : c.classCode < 14 := by
  cases c <;> simp [Cond.classCode]

theorem Cond.index_lt (c : Cond) : c.index < 32 := by
  cases c
  case fixed b => cases b <;> decide
  all_goals
    simp only [Cond.index]
    omega

theorem Cond.toWord_toNat (c : Cond) : c.toWord.toNat = 256 * c.classCode + c.index := by
  have hclass := c.classCode_lt
  have hindex := c.index_lt
  rw [Cond.toWord, BitVec.toNat_ofNat]
  omega

/-- R120: the class code stands in the high byte of the address word, the index in the low byte. -/
theorem Cond.toWord_bytes (c : Cond) : (highByte c.toWord).toNat = c.classCode ∧ (lowByte c.toWord).toNat = c.index := by
  have hindex := c.index_lt
  rw [highByte_toNat, lowByte_toNat, c.toWord_toNat]
  omega

theorem Cond.toWord_eq_packBytes (c : Cond) : c.toWord = packBytes (BitVec.ofNat 8 c.classCode) (BitVec.ofNat 8 c.index) := by
  have hclass := c.classCode_lt
  have hindex := c.index_lt
  apply BitVec.eq_of_toNat_eq
  rw [c.toWord_toNat, packBytes_toNat, BitVec.toNat_ofNat, BitVec.toNat_ofNat]
  omega

theorem Cond.ofWord_toWord (c : Cond) : Cond.ofWord c.toWord = some c := by
  obtain ⟨hclass, hindex⟩ := c.toWord_bytes
  cases c
  case fixed b => cases b <;> rfl
  case wbrkLevel | markLevel | permitRequest | linkLocked | captureFrozen => rfl
  all_goals
    unfold Cond.ofWord
    rw [hclass]
    exact congrArg (Option.map _) (recordIndex_of_eq hindex)

theorem recordIndex_val {n : Nat} {r : Byte} {i : Fin n} (h : recordIndex n r = some i) : i.val = r.toNat := by
  unfold recordIndex at h
  split at h
  · cases h
    rfl
  · cases h

/-- R120: an address word names a condition only by its class and its index. -/
theorem Cond.bytes_of_ofWord {w : Word} {c : Cond} (h : Cond.ofWord w = some c) :
    c.classCode = (highByte w).toNat ∧ c.index = (lowByte w).toNat := by
  have single : ∀ {i : Byte} {x : Cond} {y : Option Cond}, (if lowByte w = i then some x else y) = some c → x.index = i.toNat →
      (x = c ∧ c.index = (lowByte w).toNat) ∨ y = some c := by
    intro i x y hc hx
    split at hc
    · next hi =>
      cases hc
      exact .inl ⟨rfl, hi ▸ hx⟩
    · exact .inr hc
  unfold Cond.ofWord at h
  dsimp only at h
  split at h
  case h_1 hclass =>
    rcases single h rfl with ⟨rfl, hi⟩ | h
    · exact ⟨hclass.symm, hi⟩
    rcases single h rfl with ⟨rfl, hi⟩ | ⟨⟨⟩⟩
    exact ⟨hclass.symm, hi⟩
  case h_2 hclass =>
    rcases single h rfl with ⟨rfl, hi⟩ | h
    · exact ⟨hclass.symm, hi⟩
    rcases single h rfl with ⟨rfl, hi⟩ | h
    · exact ⟨hclass.symm, hi⟩
    rcases single h rfl with ⟨rfl, hi⟩ | ⟨⟨⟩⟩
    exact ⟨hclass.symm, hi⟩
  case h_3 hclass | h_6 hclass =>
    rcases single h rfl with ⟨rfl, hi⟩ | ⟨⟨⟩⟩
    exact ⟨hclass.symm, hi⟩
  case h_15 => cases h
  all_goals
    next hclass =>
      obtain ⟨i, hi, rfl⟩ := Option.map_eq_some_iff.mp h
      exact ⟨hclass.symm, recordIndex_val hi⟩

theorem Cond.toWord_of_ofWord {w : Word} {c : Cond} (h : Cond.ofWord w = some c) : c.toWord = w := by
  obtain ⟨hclass, hindex⟩ := Cond.bytes_of_ofWord h
  apply BitVec.eq_of_toNat_eq
  rw [c.toWord_toNat, hclass, hindex, highByte_toNat, lowByte_toNat, Nat.div_add_mod]

theorem Cond.ofWord_class_beyond {w : Word} (h : 13 < (highByte w).toNat) : Cond.ofWord w = none := by
  unfold Cond.ofWord
  dsimp only
  split
  any_goals omega
  rfl

/-! ## Condition levels -/

theorem Channel.discreteLevel_iff (x : Channel) : x.discreteLevel = true ↔ x.kind = .discrete
    ∧ ((x.validity = .failed ∧ x.failState = true) ∨ ((x.validity = .fresh ∨ x.validity = .stale) ∧ x.value ≠ 0)) := by
  unfold Channel.discreteLevel
  cases x.validity <;> simp

/-! ## Command areas -/

/-- R183: the head of a command area holds its table in the high byte and its record index in the low byte. -/
theorem head_bytes {w : Word} {t r : Byte} (h : w = packBytes t r) : (highByte w).toNat = t.toNat ∧ lowByte w = r := by
  rw [h, highByte_packBytes, lowByte_packBytes]
  exact ⟨rfl, rfl⟩

theorem head_table {w : Word} {t r : Byte} {n : Nat} (h : w = packBytes t r) (ht : t = 0 ∨ n < t.toNat) :
    (highByte w).toNat = 0 ∨ n < (highByte w).toNat := by
  rw [(head_bytes h).1]
  exact ht.imp_left (congrArg BitVec.toNat)

theorem Cmd.ofCode_write (p : Nat → Word) : Cmd.ofCode 3 p = Cmd.ofWrite p := rfl

theorem Cmd.ofCode_read (p : Nat → Word) : Cmd.ofCode 4 p = Cmd.ofRead p := rfl

/-- R184: a write names a table from 1 to 9. -/
theorem Cmd.ofWrite_table_beyond {p : Nat → Word} (h : (highByte (p 0)).toNat = 0 ∨ 9 < (highByte (p 0)).toNat) :
    Cmd.ofWrite p = .invalid 3 := by
  unfold Cmd.ofWrite
  dsimp only
  split
  any_goals omega
  rfl

/-- R184: a write on CHANNEL, ACTUATOR or ZONE names one of the parts of its records. -/
theorem Cmd.ofWrite_part_beyond {p : Nat → Word}
    (h : ((highByte (p 0)).toNat = 2 ∧ 1 < (p 1).toNat) ∨ ((highByte (p 0)).toNat = 3 ∧ 1 < (p 1).toNat)
      ∨ ((highByte (p 0)).toNat = 4 ∧ 2 < (p 1).toNat)) : Cmd.ofWrite p = .invalid 3 := by
  unfold Cmd.ofWrite
  dsimp only
  split
  any_goals omega
  rfl

/-- R184: a read names a table from 1 to 15. -/
theorem Cmd.ofRead_table_beyond {p : Nat → Word} (h : (highByte (p 0)).toNat = 0 ∨ 15 < (highByte (p 0)).toNat) :
    Cmd.ofRead p = .invalid 4 := by
  unfold Cmd.ofRead
  dsimp only
  split
  any_goals omega
  rfl

/-- R174: CAPTURE_CONTROL names an action from 0 to 3. -/
theorem Cmd.ofCode_action_beyond {p : Nat → Word} (h : 3 < (p 0).toNat) : Cmd.ofCode 14 p = .invalid 14 := by
  have hcode : (14 : Byte).toNat = 14 := rfl
  simp only [Cmd.ofCode, hcode]
  split
  any_goals omega
  rfl

/-- R190: READ_EVENTS names the order 0 or 1. -/
theorem Cmd.ofCode_order_beyond {p : Nat → Word} (h : 1 < (p 0).toNat) : Cmd.ofCode 17 p = .invalid 17 := by
  have hcode : (17 : Byte).toNat = 17 := rfl
  simp only [Cmd.ofCode, hcode]
  split
  any_goals omega
  rfl

/-- R166: the flags of the Capture Buffer by what it retains. -/
theorem Capture.flags_eq (c : Capture) : c.flags = (if c.records = [] then 1 else 0) + (if 256 ≤ c.records.length then 2 else 0)
    + (if 512 ≤ c.records.length then 4 else 0) := by
  simp only [Capture.flags, Capture.retained, List.length_eq_zero_iff]
  rfl

/-- Settles O24: the addresses by their bytes, the levels by their classes, the areas by their heads, the codes as they are given. -/
theorem addressesAndCommandWordsAgree : Obligations.AddressesAndCommandWordsAgree := by
  refine ⟨⟨Cond.ofWord_toWord, fun w c => Cond.toWord_of_ofWord, fun k j z c => ?_, rfl, rfl, fun w => Cond.ofWord_class_beyond⟩,
    fun d k j z c => ?_, fun p r => ?_, fun p => ?_, ?_⟩
  · exact ⟨Cond.toWord_eq_packBytes _, Cond.toWord_eq_packBytes _, Cond.toWord_eq_packBytes _, Cond.toWord_eq_packBytes _,
      Cond.toWord_eq_packBytes _, Cond.toWord_eq_packBytes _, Cond.toWord_eq_packBytes _, Cond.toWord_eq_packBytes _⟩
  · intro holds x
    exact ⟨iff_of_false Bool.false_ne_true id, iff_of_true rfl trivial, beq_iff_eq, beq_iff_eq, .rfl, beq_iff_eq, beq_iff_eq, beq_iff_eq, beq_iff_eq,
      beq_iff_eq, beq_iff_eq, beq_iff_eq, beq_iff_eq, beq_iff_eq, beq_iff_eq, beq_iff_eq, .rfl, .rfl, beq_iff_eq, beq_iff_eq, .rfl, .rfl,
      beq_iff_eq, x.discreteLevel_iff⟩
  · refine ⟨fun h => ⟨?slotMap, ?readSlotMap⟩,
      fun h => ⟨fun hp => ?scale, fun hp => ?limits, fun hp => Cmd.ofWrite_part_beyond (.inl ⟨(head_bytes h).1, hp⟩), ?readChannel⟩,
      fun h => ⟨fun hp => ?source, fun hp => ?onBreak, fun hp => Cmd.ofWrite_part_beyond (.inr (.inl ⟨(head_bytes h).1, hp⟩)), ?readActuator⟩,
      fun h => ⟨fun hp => ?setup, fun hp => ?loop, fun hp => ?safety,
        fun hp => Cmd.ofWrite_part_beyond (.inr (.inr ⟨(head_bytes h).1, hp⟩)), ?readZone⟩,
      fun h => ⟨?timer, ?readTimer⟩, fun h => ⟨?term, ?readTerm⟩, fun h => ⟨?breakConfig, ?readBreakConfig⟩,
      fun h => ⟨?speedConfig, ?readSpeedConfig⟩, fun h => ⟨?captureConfig, ?readCaptureConfig⟩, fun h => ?readShadow, fun h => ?readActive,
      fun h => ?readHistory, fun h => ?readChannelState, fun h => ?readZoneState, fun h => ?readTimerState,
      fun t h ht => Cmd.ofWrite_table_beyond (head_table h ht), fun t h ht => Cmd.ofRead_table_beyond (head_table h ht)⟩
    all_goals obtain ⟨ht, hr⟩ := head_bytes h
    case slotMap | timer | term | breakConfig | speedConfig | captureConfig =>
      rw [Cmd.ofCode_write, Cmd.ofWrite, ht, hr]
      rfl
    case scale | limits | source | onBreak | setup | loop | safety =>
      rw [Cmd.ofCode_write, Cmd.ofWrite, ht, hr, hp]
      rfl
    all_goals
      rw [Cmd.ofCode_read, Cmd.ofRead, ht, hr]
      rfl
  · refine ⟨rfl, rfl, rfl, rfl, rfl, rfl, rfl, rfl, rfl, rfl, rfl, ?_, ?_, ?_, ?_, Cmd.ofCode_action_beyond, rfl, rfl, ?_, ?_,
      Cmd.ofCode_order_beyond, rfl, rfl, fun code h => Cmd.ofCode_unknown h p⟩
    all_goals
      intro h
      simp only [Cmd.ofCode, h]
      rfl
  · exact ⟨rfl, rfl, rfl, rfl, rfl, rfl, rfl, rfl, rfl, rfl, rfl, rfl, rfl, rfl, rfl, rfl, rfl, rfl, rfl, rfl, rfl, rfl, rfl, rfl, rfl,
      Capture.flags_eq⟩

end Sys2Proof.Machine

/-! What every operation keeps of the blocks: capacities, counts, countdowns and the idle UNCONFIGURED part (O60). -/

namespace Sys2Proof.Machine

/-! ## The blocks, one by one -/

/-- R166: no more records than the buffer holds, and the read position within them. -/
def Capture.Fits (c : Capture) : Prop := c.records.length ≤ 512 ∧ c.position ≤ c.records.length

/-- R134, R140, R165: the Monitor is sound, and an UNCONFIGURED part idle. -/
structure Device.Idle (d : Device) : Prop where
  monitor : d.MonitorSound
  part : d.UnconfiguredIdle

/-- On the way from `d` to `d'` every block that was sound stays so. -/
structure KeepsBlocks (d d' : Device) : Prop where
  queue : d.events.records.length ≤ 32 → d'.events.records.length ≤ 32
  history : d.monitor.history.length ≤ 8 → d'.monitor.history.length ≤ 8
  speed : d.speed.history.length ≤ 8 → d'.speed.history.length ≤ 8
  capture : d.capture.Fits → d'.capture.Fits
  timers : d.TimersSound → d'.TimersSound
  idle : d.Idle → d'.Idle

theorem KeepsBlocks.trans {a b c : Device} (h : KeepsBlocks a b) (k : KeepsBlocks b c) : KeepsBlocks a c :=
  ⟨k.queue ∘ h.queue, k.history ∘ h.history, k.speed ∘ h.speed, k.capture ∘ h.capture, k.timers ∘ h.timers, k.idle ∘ h.idle⟩

theorem Device.bounded_iff (d : Device) : d.Bounded ↔
    d.events.records.length ≤ 32 ∧ d.monitor.history.length ≤ 8 ∧ d.speed.history.length ≤ 8 ∧ d.capture.Fits := Iff.rfl

/-! ## Idleness -/

/-- R157: an actuator out of its break phases stays so. -/
def Device.KeepsPhases (d d' : Device) : Prop := ∀ a : Fin 16, d.actuators[a].phase = .none → d'.actuators[a].phase = .none

/-- R134, R140: the Monitor stays sound where its countdown stands and no actuator enters a break phase. -/
theorem Device.MonitorSound.congr {d d' : Device} (h : d.MonitorSound) (hc : 1 ≤ d'.monitor.confirmTime ∧ d'.monitor.confirmTime ≤ 65535)
    (hs : d'.monitor.state = d.monitor.state) (hn : d'.monitor.countdown = d.monitor.countdown)
    (ht : d'.monitor.suspectTicks = d.monitor.suspectTicks) (ha : d.KeepsPhases d') : d'.MonitorSound where
  confirm := hc
  suspect := by rw [hs, hn]; exact h.suspect
  calm := by rw [hs, hn, ht]; exact h.calm
  phases hb a := ha a (h.phases (hs ▸ hb) a)

/-- What an UNCONFIGURED part must keep to stay idle. -/
structure Device.StaysIdle (d d' : Device) : Prop where
  part : d'.mailbox.ready = false → d.mailbox.ready = false
  permit : d.permit = .dropped → d'.permit = .dropped
  monitor : d.monitor.state = .disarmed → d'.monitor.state = .disarmed
  zones : (∀ z : Fin 12, d.zones[z].mode = .off) → ∀ z : Fin 12, d'.zones[z].mode = .off
  phases : d.KeepsPhases d'
  capture : d.capture.state = .idle ∨ d.capture.state = .frozen → d'.capture.state = .idle ∨ d'.capture.state = .frozen

theorem Device.UnconfiguredIdle.congr {d d' : Device} (h : d.UnconfiguredIdle) (s : d.StaysIdle d') : d'.UnconfiguredIdle := fun hr => by
  obtain ⟨hp, hm, hz, ha, hc⟩ := h (s.part hr)
  exact ⟨s.permit hp, s.monitor hm, s.zones hz, fun a => s.phases a (ha a), s.capture hc⟩

theorem Device.KeepsPhases.refl (d : Device) : d.KeepsPhases d := fun _ h => h

/-! ## Changes beside a block -/

/-- A change that leaves Monitor, tracker, buffer and units alone. -/
theorem KeepsBlocks.of_beside {d d' : Device} (hq : d.events.records.length ≤ 32 → d'.events.records.length ≤ 32) (hm : d'.monitor = d.monitor)
    (hs : d'.speed = d.speed) (hc : d'.capture = d.capture) (ht : d'.timers = d.timers) (ha : d.KeepsPhases d')
    (hr : d'.mailbox.ready = false → d.mailbox.ready = false) (hp : d'.mailbox.ready = false → d.permit = .dropped → d'.permit = .dropped)
    (hz : d'.mailbox.ready = false → (∀ z : Fin 12, d.zones[z].mode = .off) → ∀ z : Fin 12, d'.zones[z].mode = .off) : KeepsBlocks d d' where
  queue := hq
  history := by rw [hm]; exact id
  speed := by rw [hs]; exact id
  capture := by rw [hc]; exact id
  timers := by unfold Device.TimersSound; rw [ht]; exact id
  idle h := by
    refine ⟨h.monitor.congr (by rw [hm]; exact h.monitor.confirm) (by rw [hm]) (by rw [hm]) (by rw [hm]) ha, fun hn => ?_⟩
    refine h.part.congr ⟨hr, hp hn, by rw [hm]; exact id, hz hn, ha, by rw [hc]; exact id⟩ hn

/-- What a change beside all blocks leaves. -/
structure Device.BlocksStand (d d' : Device) : Prop where
  monitor : d'.monitor = d.monitor := by rfl
  speed : d'.speed = d.speed := by rfl
  capture : d'.capture = d.capture := by rfl
  timers : d'.timers = d.timers := by rfl
  actuators : d'.actuators = d.actuators := by rfl
  ready : d'.mailbox.ready = d.mailbox.ready := by rfl
  permit : d'.permit = d.permit := by rfl
  zones : d'.zones = d.zones := by rfl

/-- A change beside all blocks, but for the queue. -/
theorem KeepsBlocks.of_stand {d d' : Device} (hq : d.events.records.length ≤ 32 → d'.events.records.length ≤ 32) (s : d.BlocksStand d') :
    KeepsBlocks d d' :=
  .of_beside hq s.monitor s.speed s.capture s.timers (fun a h => by rw [s.actuators]; exact h) (fun h => by rw [← s.ready]; exact h)
    (fun _ h => by rw [s.permit]; exact h) fun _ h => by rw [s.zones]; exact h

theorem KeepsBlocks.refl (d : Device) : KeepsBlocks d d := .of_stand id {}

/-- A change of the Speed Tracker. -/
theorem KeepsBlocks.of_speed (d : Device) {s : Speed} (h : d.speed.history.length ≤ 8 → s.history.length ≤ 8) :
    KeepsBlocks d { d with speed := s } where
  queue := id
  history := id
  speed := h
  capture := id
  timers := id
  idle k := ⟨k.monitor.congr k.monitor.confirm rfl rfl rfl (.refl d), k.part.congr ⟨id, id, id, id, .refl d, id⟩⟩

/-- A change of the Timer Units. -/
theorem KeepsBlocks.of_timers (d : Device) {ts : Vector Timer 6} (h : d.TimersSound → ∀ k : Fin 6, ts[k].Sound) :
    KeepsBlocks d { d with timers := ts } where
  queue := id
  history := id
  speed := id
  capture := id
  timers := h
  idle k := ⟨k.monitor.congr k.monitor.confirm rfl rfl rfl (.refl d), k.part.congr ⟨id, id, id, id, .refl d, id⟩⟩

/-- A change of the Capture Buffer, which a part that is not READY leaves IDLE or FROZEN. -/
theorem KeepsBlocks.of_capture (d : Device) {c : Capture} {q : EventQueue} (hq : d.events.records.length ≤ 32 → q.records.length ≤ 32)
    (hf : d.capture.Fits → c.Fits)
    (hs : d.mailbox.ready = false → d.capture.state = .idle ∨ d.capture.state = .frozen → c.state = .idle ∨ c.state = .frozen) :
    KeepsBlocks d { d with capture := c, events := q } where
  queue := hq
  history := id
  speed := id
  capture := hf
  timers := id
  idle k := ⟨k.monitor.congr k.monitor.confirm rfl rfl rfl (.refl d), fun hr => k.part.congr ⟨id, id, id, id, .refl d, hs hr⟩ hr⟩

/-- A change of the Monitor and of the actuators' phases, which a part that is not READY leaves DISARMED. -/
theorem KeepsBlocks.of_monitor (d : Device) {m : Monitor} {as : Vector Actuator 16} {q : EventQueue}
    (hq : d.events.records.length ≤ 32 → q.records.length ≤ 32) (hh : d.monitor.history.length ≤ 8 → m.history.length ≤ 8)
    (hm : d.MonitorSound → ({ d with monitor := m, actuators := as, events := q } : Device).MonitorSound)
    (hs : d.mailbox.ready = false → d.monitor.state = .disarmed → m.state = .disarmed) :
    KeepsBlocks d { d with monitor := m, actuators := as, events := q } where
  queue := hq
  history := hh
  speed := id
  capture := id
  timers := id
  idle k := by
    refine ⟨hm k.monitor, fun hr => ?_⟩
    obtain ⟨hp, hd, hz, -, hc⟩ := k.part hr
    have hdis := hs hr hd
    exact ⟨hp, hdis, hz, (hm k.monitor).phases (by show m.state ≠ .broken; rw [hdis]; decide), hc⟩

/-! ## The queue and the settlement -/

/-- R188: offers keep the queue within its capacity. -/
theorem EventQueue.Grows.capacity {p : EventRecord → Prop} {q q' : EventQueue} (h : q.Grows p q') :
    q.records.length ≤ 32 → q'.records.length ≤ 32 := by
  obtain ⟨es, -, rfl⟩ := h
  induction es generalizing q with
  | nil => exact id
  | cons e es ih => exact fun hq => ih (q.offer_length e hq)

/-- R131: a settlement leaves the permit or drops it. -/
theorem settled_permit (d : Device) (e : Effect) (m : TermSet) : (settled d e m).permit = e.dev.permit ∨ (settled d e m).permit = .dropped := by
  have hp : (settle d e.dev m).1.permit = e.dev.permit := settle_permit d e.dev m
  have hc := settleAndDrop_cases d e.dev m
  unfold settled
  generalize (settle d e.dev m).1 = d1 at hc hp
  rcases hc with ⟨h, -⟩ | ⟨-, o, h, -⟩ | ⟨hf, -, o, n, h, -⟩
  · rw [h]; exact .inl hp
  · rw [h]; exact .inr rfl
  · obtain ⟨q, hq⟩ := Device.dropAmongTerms_frame d e.dev { d1 with choices := o } n hf
    rw [h, hq]
    exact .inr rfl

/-- R123, R131: what an effect keeps it keeps once its change has settled. -/
theorem KeepsBlocks.settled {d : Device} {e : Effect} (h : KeepsBlocks d e.dev) (m : TermSet) : KeepsBlocks d (settled d e m) := by
  have hq : d.events.records.length ≤ 32 → (Machine.settled d e m).events.records.length ≤ 32 := fun hd => by
    obtain ⟨q, rfl | ⟨rfl, -⟩, hg⟩ := settled_grows_from d e m
    · exact hg.capacity (h.queue hd)
    · exact hg.capacity hd
  have hp := settled_permit d e m
  obtain ⟨t, p, q, o, hs⟩ := settled_frame d e m
  rw [hs] at hq hp ⊢
  refine { queue := hq, history := h.history, speed := h.speed, capture := h.capture, timers := h.timers, idle := fun k => ?_ }
  have k' := h.idle k
  exact ⟨k'.monitor.congr k'.monitor.confirm rfl rfl rfl (.refl e.dev),
    k'.part.congr ⟨id, fun hd => hp.elim (fun h => h.trans hd) id, id, id, .refl e.dev, id⟩⟩

end Sys2Proof.Machine

/-! Each event keeps the blocks sound (O60). -/

namespace Sys2Proof.Machine

/-! ## The Speed Tracker and the Timer Units -/

/-- R46: the history holds at most eight samples. -/
theorem pushSample_length {h : List Int} (hl : h.length ≤ 8) (v : Int) : (pushSample h v).length ≤ 8 := by
  have hcap : Config.speedHistoryCapacity = 8 := rfl
  unfold pushSample
  split <;> simp <;> omega

theorem Device.speedSample_keepsBlocks (d : Device) : KeepsBlocks d d.speedSample := by
  unfold Device.speedSample
  dsimp only
  split
  · exact .of_speed d fun h => pushSample_length h _
  · exact .refl d

/-- R117: loading the latch takes N from N or from the latch. -/
theorem Timer.loadLatch_n (t : Timer) : t.loadLatch.n = t.n ∨ t.loadLatch.n = t.latchN := by
  unfold Timer.loadLatch
  split
  · exact .inr rfl
  · exact .inl rfl

theorem Timer.loadLatch_latchN (t : Timer) : t.loadLatch.latchN = t.latchN := by
  unfold Timer.loadLatch
  split <;> rfl

/-- A count at 0, with N as it stood or from the latch. -/
theorem Timer.Sound.zeroed {t y : Timer} (h : t.Sound) (hn : y.n = t.n ∨ y.n = t.latchN) (hl : y.latchN = t.latchN) (hc : y.count = 0) : y.Sound := by
  have hn' : 1 ≤ y.n ∧ y.n ≤ 65535 := by
    rcases hn with e | e <;> rw [e]
    · exact h.n
    · exact h.latch
  exact ⟨hn', by rw [hl]; exact h.latch, by rw [hc]; exact hn'.1, fun _ => hc⟩

/-- A count that stands. -/
theorem Timer.Sound.stands {t y : Timer} (h : t.Sound) (hn : y.n = t.n) (hl : y.latchN = t.latchN) (hc : y.count = t.count)
    (hi : y.isCounting = false → t.isCounting = false) : y.Sound :=
  ⟨by rw [hn]; exact h.n, by rw [hl]; exact h.latch, by rw [hn, hc]; exact h.count, fun k => by rw [hc]; exact h.idle (hi k)⟩

/-- A count one further, of a unit that counts. -/
theorem Timer.Sound.counted {t y : Timer} (h : t.Sound) (hn : y.n = t.n) (hl : y.latchN = t.latchN) (hc : y.count = t.count + 1)
    (hlt : ¬ t.n ≤ t.count + 1) (hi : y.isCounting = true) : y.Sound :=
  ⟨by rw [hn]; exact h.n, by rw [hl]; exact h.latch, by omega, fun k => by rw [hi] at k; cases k⟩

/-- R109 to R113: an edge keeps a unit sound. -/
theorem Timer.Sound.takeEdge {t : Timer} (h : t.Sound) (level : Bool) : (t.takeEdge level).Sound := by
  have start : ∀ {y : Timer}, y.n = ({ t with inputLevel := level } : Timer).loadLatch.n →
      y.latchN = ({ t with inputLevel := level } : Timer).loadLatch.latchN → y.count = 0 → y.Sound := fun hn hl hc =>
    h.zeroed (by rw [hn]; exact Timer.loadLatch_n { t with inputLevel := level }) (by rw [hl, Timer.loadLatch_latchN]) hc
  unfold Timer.takeEdge
  dsimp only
  split
  case h_1 =>
    split
    · exact start rfl rfl rfl
    · exact h.zeroed (.inl rfl) rfl rfl
  case h_2 hm | h_4 hm =>
    split
    · exact start rfl rfl rfl
    · exact h.stands rfl rfl rfl fun hi => by simpa [Timer.isCounting, hm] using hi
  case h_3 hm =>
    split
    · split <;> exact start rfl rfl rfl
    · exact h.stands rfl rfl rfl fun hi => by simpa [Timer.isCounting, hm] using hi
  case h_5 hm =>
    split
    · exact h.zeroed (.inl rfl) rfl rfl
    · next hl => exact h.stands rfl rfl rfl fun hi => by simp [Timer.isCounting, hm, hl] at hi

/-- R109 to R113: a clock keeps a unit sound. -/
theorem Timer.Sound.takeClock {t : Timer} (h : t.Sound) : t.takeClock.1.Sound := by
  unfold Timer.takeClock
  split
  case h_1 hm | h_2 hm | h_3 hm =>
    split
    · exact h
    · next hc =>
      split
      · exact h.zeroed (.inl rfl) rfl rfl
      · next hn => exact h.counted rfl rfl rfl hn (by simpa [Timer.isCounting, hm] using hc)
  case h_4 =>
    split
    · exact h.zeroed (.inl rfl) rfl rfl
    · exact h
  case h_5 hm =>
    split
    · next hl => exact h.stands rfl rfl rfl fun _ => by simp [Timer.isCounting, hm, hl]
    · next hl =>
      split
      · exact h.zeroed (Timer.loadLatch_n { t with count := 0 }) (Timer.loadLatch_latchN { t with count := 0 }) (by
          show ({ t with count := 0 } : Timer).loadLatch.count = 0
          unfold Timer.loadLatch
          split <;> rfl)
      · next hn => exact h.counted rfl rfl rfl hn (by simpa [Timer.isCounting, hm] using hl)

theorem KeepsBlocks.of_timer (d : Device) (k : Fin 6) {x : Timer} (h : d.timers[k].Sound → x.Sound) : KeepsBlocks d (d.setTimer k x) :=
  .of_timers d fun hs => forall_get_set d.timers k x hs (h (hs k))

theorem Device.edgeTimer_keepsBlocks (d : Device) (k : Fin 6) (c : Cond) (level : Bool) : KeepsBlocks d (d.edgeTimer k c level) := by
  unfold Device.edgeTimer
  dsimp only
  split
  · exact .refl d
  · exact .of_timer d k fun h => h.takeEdge level

theorem Device.clockTimer_keepsBlocks (d : Device) (k : Fin 6) (source : ClockSource) : KeepsBlocks d (d.clockTimer k source).1 := by
  unfold Device.clockTimer
  dsimp only
  split
  · exact .refl d
  · exact .of_timer d k fun h => h.takeClock

/-! ## The Capture Buffer -/

theorem Capture.Fits.congr {c x : Capture} (h : c.Fits) (hr : x.records = c.records) (hp : x.position = c.position) : x.Fits := by
  unfold Capture.Fits
  rw [hr, hp]
  exact h

theorem Capture.Fits.push {c x : Capture} (h : c.Fits) {r : CaptureRecord} (hr : x.records = pushRecord c.records r) (hp : x.position = c.position) :
    x.Fits := by
  obtain ⟨h1, h2⟩ := h
  unfold Capture.Fits
  rw [hr, hp]
  rcases pushRecord_length c.records r with hl | ⟨hl, hl'⟩ <;> omega

theorem Capture.Fits.empty {c : Capture} (hr : c.records = []) (hp : c.position = 0) : c.Fits := by
  unfold Capture.Fits
  rw [hr, hp]
  exact ⟨Nat.zero_le _, Nat.zero_le _⟩

theorem Capture.loadLatch_records (c : Capture) : c.loadLatch.records = c.records ∧ c.loadLatch.position = c.position := by
  unfold Capture.loadLatch
  split <;> exact ⟨rfl, rfl⟩

theorem Capture.triggered_records (c : Capture) : c.triggered.records = c.records ∧ c.triggered.position = c.position := by
  unfold Capture.triggered
  split <;> exact ⟨rfl, rfl⟩

/-- A buffer that is IDLE or FROZEN neither takes a trigger nor records. -/
theorem CaptureState.idle_or_frozen {q : CaptureState} (h : q = .idle ∨ q = .frozen) : q.acceptsTrigger = false ∧ q.recording = false := by
  rcases h with rfl | rfl <;> exact ⟨rfl, rfl⟩

theorem Device.captureTrigger_keepsBlocks (d : Device) (source : Nat) : KeepsBlocks d (d.captureTrigger source) := by
  have hq := (d.captureTrigger_grows source).capacity
  by_cases ha : d.capture.state.acceptsTrigger = true
  · have hc : (d.captureTrigger source).capture = d.capture.loadLatch.triggered := by
      unfold Device.captureTrigger
      dsimp only
      rw [if_pos ha]
      split <;> rfl
    obtain ⟨c, q, h⟩ := d.captureTrigger_frame source
    rw [h] at hq hc ⊢
    refine .of_capture d hq (fun hf => ?_) fun _ hs => ?_
    · rw [show c = _ from hc]
      exact (hf.congr d.capture.loadLatch_records.1 d.capture.loadLatch_records.2).congr (Capture.triggered_records _).1 (Capture.triggered_records _).2
    · rw [(CaptureState.idle_or_frozen hs).1] at ha
      cases ha
  · unfold Device.captureTrigger
    rw [if_neg ha]
    exact .refl d

theorem Device.captureTriggers_keepsBlocks (ns : List Nat) (d : Device) : KeepsBlocks d (ns.foldl Device.captureTrigger d) := by
  induction ns generalizing d with
  | nil => exact .refl d
  | cons n ns ih => exact (d.captureTrigger_keepsBlocks n).trans (ih _)

theorem Device.recordCompletion_keepsBlocks (d : Device) (good : Bool) : KeepsBlocks d (d.recordCompletion good) := by
  have hq := (d.recordCompletion_grows good).capacity
  by_cases hr : d.capture.state.recording = true
  · have hf : d.capture.Fits → (d.recordCompletion good).capture.Fits := fun h => by
      by_cases hc : d.capture.counter = 0
      · refine h.push (r := d.makeRecord good) ?_ ?_ <;>
        · unfold Device.recordCompletion
          rw [if_pos hr, if_pos hc]
          dsimp only
          split <;> rfl
      · rw [d.recordCompletion_between hr hc]
        exact h.congr rfl rfl
    obtain ⟨c, q, h⟩ := d.recordCompletion_frame good
    rw [h] at hq hf ⊢
    refine .of_capture d hq hf fun _ hs => ?_
    rw [(CaptureState.idle_or_frozen hs).2] at hr
    cases hr
  · rw [d.recordCompletion_idle (by simpa using hr)]
    exact .refl d

/-! ## The Break Monitor -/

/-- R143: the history holds at most eight records. -/
theorem pushBreakRecord_length {rs : List BreakRecord} (h : rs.length ≤ 8) (r : BreakRecord) : (pushBreakRecord rs r).length ≤ 8 := by
  have hcap : Config.historyCapacity = 8 := rfl
  unfold pushBreakRecord
  split <;> simp <;> omega

theorem BreakState.mayDeclare_disarmed {b : BreakState} (h : b = .disarmed) : b.mayDeclare = false := by rw [h]; rfl

theorem Device.declareBreak_keepsBlocks (d : Device) (cause : BreakCause) (index : Nat) : KeepsBlocks d (d.declareBreak cause index) := by
  have hq := (d.declareBreak_grows cause index).capacity
  unfold Device.declareBreak at hq ⊢
  split
  · next hd =>
    rw [if_pos hd] at hq
    refine .of_monitor d hq (fun h => pushBreakRecord_length h _) (fun h => ?_) fun _ hs => ?_
    · exact ⟨h.confirm, fun hs => (by cases hs), fun _ => ⟨rfl, rfl⟩, fun hn => absurd rfl hn⟩
    · rw [BreakState.mayDeclare_disarmed hs] at hd
      cases hd
  · exact .refl d

theorem Device.enterSuspect_keepsBlocks (d : Device) (index : Nat) : KeepsBlocks d (d.enterSuspect index) := by
  have hq := (d.levels_grow index).1.capacity
  unfold Device.enterSuspect at hq ⊢
  split
  · next hd =>
    rw [if_pos hd] at hq
    refine .of_monitor d hq id (fun h => ?_) fun _ hs => ?_
    · exact ⟨h.confirm, fun _ => h.confirm, fun hn => absurd rfl hn, fun _ => h.phases (by rw [hd]; decide)⟩
    · rw [hs] at hd
      cases hd
  · exact .refl d

theorem Device.clearSuspect_keepsBlocks (d : Device) : KeepsBlocks d d.clearSuspect := by
  have hq := (d.levels_grow 0).2.capacity
  unfold Device.clearSuspect at hq ⊢
  split
  · next hd =>
    rw [if_pos hd] at hq
    refine .of_monitor d hq id (fun h => ?_) fun _ hs => ?_
    · exact ⟨h.confirm, fun hs => (by cases hs), fun _ => ⟨rfl, rfl⟩, fun _ => h.phases (by rw [hd]; decide)⟩
    · rw [hs] at hd
      cases hd
  · exact .refl d

/-- R140: a tick counts the confirmation down while it has not ended, and declares at its end. -/
theorem Device.monitorTick_keepsBlocks (d : Device) : KeepsBlocks d d.monitorTick.1 := by
  unfold Device.monitorTick
  split
  · next hs =>
    dsimp only
    split
    · next he =>
      have hdec : d.monitor.countTick.state.mayDeclare = true := by
        show d.monitor.state.mayDeclare = true
        rw [hs]; rfl
      have hq := (Device.declareBreak_grows { d with monitor := d.monitor.countTick } .softTerm
        (({ d with monitor := d.monitor.countTick } : Device).causeIndex .softTerm)).capacity
      unfold Device.declareBreak at hq ⊢
      rw [if_pos hdec] at hq ⊢
      refine .of_monitor d hq (fun h => pushBreakRecord_length h _) (fun h => ?_) fun _ hd => ?_
      · exact ⟨h.confirm, fun hs => (by cases hs), fun _ => ⟨rfl, rfl⟩, fun hn => absurd rfl hn⟩
      · rw [hs] at hd
        cases hd
    · next he =>
      refine .of_monitor d (as := d.actuators) (q := d.events) id id (fun h => ?_) fun _ hd => ?_
      · have he : d.monitor.countdown - 1 ≠ 0 := he
        have hc := (h.suspect hs).2
        exact ⟨h.confirm, fun _ => ⟨Nat.one_le_iff_ne_zero.mpr he, by show d.monitor.countdown - 1 ≤ 65535; omega⟩, fun hn => absurd hs hn,
          fun _ => h.phases (by rw [hs]; decide)⟩
      · rw [hs] at hd
        cases hd
  · exact .refl d

/-! ## The zones -/

/-- R70: a zone that is OFF sees nothing. -/
theorem act_zones_off (ws : List Job) {d : Device} (h : ∀ z : Fin 12, d.zones[z].mode = .off) {j : Job} (hj : j.movesZones = true) :
    (act ws d j).dev.zones = d.zones := by
  cases j <;> simp only [act]
  case zoneValidity z v =>
    unfold Device.zoneSeesValidity
    dsimp only
    rw [h z]
    cases v <;> rfl
  case zoneDemand z b =>
    unfold Device.zoneSeesDemand
    rw [h z]
    cases b <;> rfl
  case zoneTick z =>
    unfold Device.zoneTick
    dsimp only
    rw [h z, if_neg (by decide)]
  case zoneArrival z =>
    unfold Device.zoneArrival
    dsimp only
    rw [h z, if_neg (by decide)]
  case zonesBreak =>
    unfold Device.zonesSeeBreak
    rw [List.foldl_fixed_of_forall]
    intro z _
    unfold Device.zoneSeesBreak
    dsimp only
    rw [h z]
  all_goals cases hj

/-- A change at the zones that leaves an idle part idle. -/
theorem KeepsBlocks.of_zones {d d' : Device} (h : OnlyZones d d') (hq : d.events.records.length ≤ 32 → d'.events.records.length ≤ 32)
    (hz : d.mailbox.ready = false → (∀ z : Fin 12, d.zones[z].mode = .off) → ∀ z : Fin 12, d'.zones[z].mode = .off) : KeepsBlocks d d' := by
  obtain ⟨_, _, _, _, _, _, _, rfl⟩ := h
  exact .of_beside hq rfl rfl rfl rfl (.refl d) id (fun _ h => h) hz

/-! ## Each event -/

/-- Every event keeps the blocks sound. -/
theorem act_keepsBlocks (ws : List Job) (d : Device) (j : Job) : KeepsBlocks d (act ws d j).dev := by
  have hf := act_frame ws d j
  have hq := (act_grows ws d j).capacity
  cases hm : j.movesZones with
  | true =>
    have hoff := fun h => act_zones_off ws (d := d) h hm
    have hz : OnlyZones d (act ws d j).dev := by
      cases j
      case zoneValidity | zoneDemand | zoneTick | zoneArrival | zonesBreak => exact hf
      all_goals cases hm
    exact .of_zones hz hq fun _ h z => by rw [hoff h]; exact h z
  | false =>
    cases j
    case zoneValidity | zoneDemand | zoneTick | zoneArrival | zonesBreak => cases hm
    case speedSample => exact d.speedSample_keepsBlocks
    case speedLoss => exact .of_speed d fun _ => Nat.zero_le _
    case timerEdge k c b => exact d.edgeTimer_keepsBlocks k c b
    case timerClock k source => exact d.clockTimer_keepsBlocks k source
    case hardRise cause n => exact d.declareBreak_keepsBlocks cause _
    case softRise n => exact d.enterSuspect_keepsBlocks _
    case softFall => exact d.clearSuspect_keepsBlocks
    case monitorTick => exact d.monitorTick_keepsBlocks
    case captureTrigger ns => exact d.captureTriggers_keepsBlocks ns
    case captureRecord good => exact d.recordCompletion_keepsBlocks good
    case controlWord w =>
      have hbuffer := KeepsBlocks.of_capture d (c := { d.capture with lastRequest := w.getLsbD 1 }) (q := d.events) id (fun h => h) fun _ h => h
      exact hbuffer.trans (.of_stand id {})
    case breakWord w =>
      exact .of_monitor d (as := d.actuators) (q := d.events) id id (fun h => h.congr h.confirm rfl rfl rfl (.refl d)) fun _ h => h
    all_goals
      generalize (act ws d _).dev = d' at hf hq ⊢
      dsimp only [Job.Frame] at hf
    case timeoutTick | linkGood | linkBad =>
      obtain ⟨_, _, _, _, rfl⟩ := hf
      exact .of_stand hq {}
    case deferredTerm =>
      obtain ⟨_, _, rfl⟩ := hf
      exact .of_stand hq {}
    case channelTick | channelSample | permitDropped =>
      obtain ⟨_, rfl⟩ := hf
      exact .of_stand hq {}
    case channelChange | markLevel | wbrkLevel | command =>
      rw [hf]
      exact .of_stand id {}

/-- What an event keeps, once its change has settled. -/
theorem event_keepsBlocks (ws : List Job) (d : Device) (j : Job) (m : TermSet) : KeepsBlocks d (settled d (act ws d j) m) :=
  (act_keepsBlocks ws d j).settled m

theorem KeepsBlocks.of_choices (d : Device) (o : Choices) : KeepsBlocks d { d with choices := o } :=
  .of_stand id {}

/-- What was kept on the way to an event, the event keeps. -/
theorem blocks_event (d0 : Device) : KeptByEvent (KeepsBlocks d0) fun _ => True where
  choose d n h := by
    obtain ⟨o, ho⟩ := d.choose_dev n
    rw [ho]
    exact h.trans (.of_choices d o)
  act ws d j m h _ := h.trans (event_keepsBlocks ws d j m)
  handsOn _ _ _ _ _ _ _ _ := trivial

/-- An effect and what follows from it. -/
theorem KeepsBlocks.run {d : Device} {e : Effect} (h : KeepsBlocks d e.dev) : KeepsBlocks d (d.runEffect e) :=
  Device.runEffect_keeps (blocks_event d) d e (fun m => h.settled m) fun _ _ _ => trivial

end Sys2Proof.Machine

/-! The Ring Port, the lines and the resets keep the blocks sound (O60). -/

namespace Sys2Proof.Machine

/-! ## One record written -/

theorem Device.KeepsPhases.of_actuator (d : Device) (a : Fin 16) {x : Actuator} (h : d.actuators[a].phase = .none → x.phase = .none) :
    d.KeepsPhases (d.setActuator a x) := fun b hb => by
  by_cases hab : b = a
  · subst hab
    rw [Device.setActuator_read]
    exact h hb
  · rw [d.setActuator_read_ne x hab]
    exact hb

/-- A change of an actuator that does not enter a break phase. -/
theorem KeepsBlocks.of_actuator (d : Device) (a : Fin 16) {x : Actuator} (h : d.actuators[a].phase = .none → x.phase = .none) :
    KeepsBlocks d (d.setActuator a x) := .of_beside id rfl rfl rfl rfl (.of_actuator d a h) id (fun _ h => h) fun _ h => h

theorem KeepsBlocks.of_raise (d : Device) (k : EventKind) (n : Nat) (v : Word) : KeepsBlocks d (d.raise k n v) :=
  .of_stand (d.events.offer_length _) {}

/-- A change of a zone that leaves OFF alone. -/
theorem KeepsBlocks.of_zone (d : Device) (z : Fin 12) {x : Zone} (h : d.zones[z].mode = .off → x.mode = .off) : KeepsBlocks d (d.setZone z x) :=
  .of_beside id rfl rfl rfl rfl (.refl d) id (fun _ h => h) fun _ hz => forall_get_set (p := fun y : Zone => y.mode = .off) d.zones z x hz (h (hz z))

/-! ## The Ring Port -/

/-- R157: a slot passing begins no break phase. -/
theorem Actuator.pass_phase_none {x : Actuator} (h : x.phase = .none) (s : Int) : (x.pass s).phase = .none := by
  rw [Actuator.pass_none h]
  exact h

theorem Device.passActuator_keepsBlocks (d : Device) (a : Fin 16) : KeepsBlocks d (d.passActuator a) :=
  .of_actuator d a fun h => Actuator.pass_phase_none h _

theorem Device.passOutput_keepsBlocks (d : Device) (a : Fin 16) (w : Word) : KeepsBlocks d (d.passOutput a w) := by
  unfold Device.passOutput
  split
  · exact (d.passActuator_keepsBlocks a).trans (.of_stand id {})
  · exact .of_stand id {}

theorem Device.passAt_keepsBlocks (d : Device) (w : Word) (p : Place) : KeepsBlocks d (d.passAt w p) := by
  cases p
  case output a => exact d.passOutput_keepsBlocks a w
  case resultHead =>
    show KeepsBlocks d (d.passResultHead w)
    unfold Device.passResultHead
    dsimp only
    split
    · split <;> exact .of_stand id {}
    · exact .of_stand id {}
  case resultRest =>
    show KeepsBlocks d (d.passResultRest w)
    unfold Device.passResultRest
    dsimp only
    split <;> exact .of_stand id {}
  all_goals exact .of_stand id {}

theorem Device.signalUnseen_keepsBlocks (d : Device) (n : Nat) (a : Fin 16) : KeepsBlocks d (d.signalUnseen n a) := by
  unfold Device.signalUnseen
  dsimp only
  split
  · exact .refl d
  · exact (KeepsBlocks.of_actuator d a (x := { d.actuators[a] with unseen := true }) fun h => h).trans (.of_raise _ _ _ _)

theorem Device.signalAllUnseen_keepsBlocks (d : Device) (n : Nat) : KeepsBlocks d (d.signalAllUnseen n) := by
  unfold Device.signalAllUnseen
  generalize (List.finRange 16).filter _ = xs
  induction xs generalizing d with
  | nil => exact .refl d
  | cons a xs ih => exact (d.signalUnseen_keepsBlocks n a).trans (ih _)

theorem Device.beginFrame_keepsBlocks (d : Device) (w : Word) : KeepsBlocks d (d.beginFrame w) := by
  unfold Device.beginFrame
  dsimp only
  split
  · exact .of_stand id {}
  · split
    · have started : KeepsBlocks d (({ d.forgetBreak with mailbox := { d.mailbox with written := false } } : Device).setFrame
          (startedFrame (.cycle (slotCount w)) w)) := .of_stand id {}
      split
      · exact started.trans (Device.signalAllUnseen_keepsBlocks _ _)
      · exact started
    · exact .of_stand id {}

/-! ## The lines -/

theorem Timer.Sound.takeLevel {t : Timer} (h : t.Sound) (level : Bool) : (t.takeLevel level).Sound := by
  unfold Timer.takeLevel
  split
  case h_1 => exact h.takeEdge level
  case h_2 hm | h_3 hm | h_4 hm | h_5 hm => exact h.stands rfl rfl rfl fun hi => by simpa [Timer.isCounting, hm] using hi

theorem Device.firstAcceptance_keepsBlocks (d : Device) (lines : Lines) (c : Cond) (level : Bool) :
    KeepsBlocks d (d.firstAcceptance lines c level).dev := by
  have hlines : KeepsBlocks d { d with lines := lines } := .of_stand id {}
  refine hlines.trans (.of_timers { d with lines := lines } fun h k => ?_)
  show ((d.timers.map fun t : Timer => if t.input = c then t.takeLevel level else t)[k]).Sound
  rw [get_map]
  split
  · exact (h k).takeLevel level
  · exact h k

/-! ## The resets -/

/-- R22: the power-on values are sound, whatever stood before. -/
theorem Device.rstnRises_keepsBlocks (d : Device) (straps : BitVec 5) : KeepsBlocks d (d.rstnRises straps) := by
  obtain ⟨f, hf, -⟩ := d.rstnRises_eq straps
  have hz : ∀ z : Fin 12, (Device.atPowerOn straps).zones[z].mode = .off := fun z => by rw [Device.atPowerOn_zone]
  rw [hf]
  refine ⟨fun _ => Nat.zero_le _, fun _ => Nat.zero_le _, fun _ => Nat.zero_le _, fun _ => ⟨Nat.zero_le _, Nat.zero_le _⟩,
    fun _ => fun k => forall_get_replicate Timer.sound_default k, fun _ => ⟨?_, fun _ => ?_⟩⟩
  · exact (Device.atPowerOn_monitorSound straps).congr (Device.atPowerOn_monitorSound straps).confirm rfl rfl rfl (.refl _)
  · exact ⟨rfl, rfl, hz, Device.atPowerOn_phase straps, .inl rfl⟩

/-- R105: a unit at SOFT_RESET, whatever level it then takes. -/
theorem Timer.Sound.softReset {t : Timer} (h : t.Sound) (level : Bool) : ({ t.softReset with inputLevel := level } : Timer).Sound := by
  have hn : 1 ≤ t.loadLatch.n ∧ t.loadLatch.n ≤ 65535 := by
    rcases t.loadLatch_n with e | e <;> rw [e]
    · exact h.n
    · exact h.latch
  exact ⟨hn, hn, hn.1, fun _ => rfl⟩

theorem Capture.softReset_fits {c : Capture} (h : c.Fits) : c.softReset.Fits := by
  obtain ⟨hr, -⟩ := c.loadLatch_records
  refine ⟨?_, Nat.zero_le _⟩
  show c.loadLatch.records.length ≤ 512
  rw [hr]
  exact h.1

theorem Capture.softReset_state (c : Capture) : c.softReset.state = .idle ∨ c.softReset.state = .frozen := by
  unfold Capture.softReset
  dsimp only
  split
  · exact .inl rfl
  · exact .inr rfl

/-- R187: SOFT_RESET leaves every block idle. -/
theorem Device.softReset_keepsBlocks (d : Device) : KeepsBlocks d d.softReset := by
  obtain ⟨-, -, -, speed, -, zones, permit, monitor, actuators, capture, -⟩ := d.softReset_blocks
  have hphase : ∀ a : Fin 16, d.softReset.actuators[a].phase = .none := fun a => by
    rw [actuators, get_map]
    rfl
  refine ⟨fun _ => ?_, fun h => ?_, fun _ => ?_, fun h => ?_, fun h k => ?_,
    fun h => ⟨⟨?_, ?_, ?_, fun _ => hphase⟩, fun _ => ⟨permit, ?_, fun z => ?_, hphase, ?_⟩⟩⟩
  · rw [d.softReset_events]
    decide
  · rw [monitor]
    exact h
  · rw [speed]
    exact Nat.zero_le _
  · rw [capture]
    exact Capture.softReset_fits h
  · rw [d.softReset_timer k]
    exact (h k).softReset _
  · rw [monitor]
    exact h.monitor.confirm
  · rw [monitor]
    intro hs
    cases hs
  · rw [monitor]
    exact fun _ => ⟨rfl, rfl⟩
  · rw [monitor]
  · rw [zones, get_map]
    rfl
  · rw [capture]
    exact Capture.softReset_state _

end Sys2Proof.Machine

/-! Every command keeps the blocks sound, and so does every step (O60). -/

namespace Sys2Proof.Machine

/-! ## The zones on command -/

theorem Device.commandZone_at (d : Device) (z : Fin 12) (target : Mode) : AtZone z d (d.commandZone z target) := by
  unfold Device.commandZone
  dsimp only
  split
  case h_1 | h_6 => exact .refl z d
  case h_2 => exact (d.endMark_at z false).trans (.of_zone _ z _)
  case h_3 => exact d.enterPreheatSeeded_at z
  case h_4 => exact ((d.endMark_at z false).trans (.of_zone _ z _)).trans (Device.entryCheck_at _ z)
  case h_5 => exact (AtZone.of_zone d z _).trans (Device.entryCheck_at _ z)

/-- R79: what SET_ZONE_MODE leaves of the Mailbox and of the queue. -/
theorem Device.commandZones_at (d : Device) (mask : Word) (target : Mode) : AtZones d (d.commandZones mask target) := by
  unfold Device.commandZones
  generalize List.finRange 12 = zs
  induction zs generalizing d with
  | nil => exact .refl d
  | cons z zs ih =>
    refine AtZones.trans ?_ (ih _)
    dsimp only
    split
    · exact (d.commandZone_at z target).toAtZones
    · exact .refl d

/-! ## What a reply keeps -/

/-- What a command's rule does keeps the blocks sound. -/
def Reply.Keeps (d : Device) : Reply → Prop
  | .answer _ _ => True
  | .store d1 _ => KeepsBlocks d d1
  | .settled e _ => KeepsBlocks d e.dev
  | .waits d1 => KeepsBlocks d d1

section
variable (d : Device)

theorem replyWriteSlotMap_keeps (r : Byte) (slot kind index : Word) : (d.replyWriteSlotMap r slot kind index).Keeps d := by
  unfold Device.replyWriteSlotMap
  split
  · unfold Device.replyWriteLinkRecord
    split
    · trivial
    · split
      · exact .of_stand id {}
      · trivial
  · split
    · trivial
    · split
      · trivial
      · split
        · exact .of_stand id {}
        · split
          · split
            · trivial
            · exact .of_stand id {}
          · trivial

theorem KeepsBlocks.of_raiseAll (n : Nat) (evs : List (EventKind × Word)) : KeepsBlocks d (d.raiseAll n evs) := by
  induction evs generalizing d with
  | nil => exact .refl d
  | cons e es ih => exact (KeepsBlocks.of_raise d e.1 n e.2).trans (ih _)

theorem KeepsBlocks.of_channel (c : Fin 32) (x : Channel) : KeepsBlocks d (d.setChannel c x) := .of_stand id {}

theorem replyWriteChannelScale_keeps (r : Byte) (kind gain offset lo hi alpha : Word) :
    (d.replyWriteChannelScale r kind gain offset lo hi alpha).Keeps d := by
  unfold Device.replyWriteChannelScale
  split
  · dsimp only
    split
    · split
      · exact .of_channel d _ _
      · split
        · trivial
        · exact .of_channel d _ _
    · trivial
  · trivial

theorem replyWriteChannelLimits_keeps (r : Byte) (stale fail hi lo hyst failState enables : Word) :
    (d.replyWriteChannelLimits r stale fail hi lo hyst failState enables).Keeps d := by
  unfold Device.replyWriteChannelLimits
  split
  · dsimp only
    split
    · split
      · exact (KeepsBlocks.of_channel d _ _).trans (.of_raiseAll _ _ _)
      · exact .of_channel d _ _
    · trivial
  · trivial

/-- R43: a write of the tracker leaves the history or empties it. -/
theorem Speed.write_history (s : Speed) (c : Fin 32) (crawl run accel lead : Int) :
    (s.write c crawl run accel lead).history = if s.speedChannel = c then s.history else [] := by
  unfold Speed.write
  dsimp only
  split <;> rfl

theorem replyWriteSpeedConfig_keeps (r : Byte) (channel crawl run accel lead : Word) :
    (d.replyWriteSpeedConfig r channel crawl run accel lead).Keeps d := by
  have hs : ∀ c, KeepsBlocks d { d with speed := d.speed.write c (unsigned crawl) (unsigned run) (unsigned accel) (unsigned lead) } := fun c =>
    .of_speed d fun h => by
      rw [Speed.write_history]
      split
      · exact h
      · exact Nat.zero_le _
  unfold Device.replyWriteSpeedConfig
  split
  · dsimp only
    split
    · split
      · exact hs _
      · split
        · trivial
        · exact hs _
    · trivial
  · trivial

theorem replyWriteProfile_keeps (header : Word) (points : Vector Word 9) : (d.replyWriteProfile header points).Keeps d := by
  unfold Device.replyWriteProfile
  split
  · trivial
  · split
    · exact .of_stand id {}
    · trivial

/-- R61: the copy marks zones, and moves none. -/
theorem Device.commitCopy_keepsBlocks (tag : Byte) : KeepsBlocks d (d.commitCopy tag) := by
  have hoff : ∀ z : Zone, z.mode = .off → (if z.mode = .track then { z with bumpless := true } else z).mode = .off := fun z h => by
    rw [if_neg (by rw [h]; decide)]
    exact h
  have marked : KeepsBlocks d { d with
      profile := { d.profile with active := d.profile.shadow, commit := some { marked := d.trackMask } }
      zones := d.zones.map fun z => if z.mode = .track then { z with bumpless := true } else z
      mailbox := { d.mailbox with executing := some { code := 6, tag := tag } } } := by
    refine .of_beside id rfl rfl rfl rfl (.refl d) id (fun _ h => h) fun _ hz z => ?_
    show (d.zones.map fun z : Zone => if z.mode = .track then { z with bumpless := true } else z)[z].mode = .off
    rw [get_map]
    exact hoff _ (hz z)
  unfold Device.commitCopy
  dsimp only
  split
  · exact marked.trans (.of_stand (EventQueue.offer_length _ _) {})
  · exact marked

theorem replyCommitProfile_keeps (tag : Byte) : (d.replyCommitProfile tag).Keeps d := by
  unfold Device.replyCommitProfile
  split
  · trivial
  · exact d.commitCopy_keepsBlocks tag

theorem replyWriteZone_keeps :
    (∀ r on c lo hi preheat ramp auto, (d.replyWriteZoneSetup r on c lo hi preheat ramp auto).Keeps d)
      ∧ (∀ r kp ki lo hi slew, (d.replyWriteZoneLoop r kp ki lo hi slew).Keeps d)
      ∧ ∀ r band purge fault time, (d.replyWriteZoneSafety r band purge fault time).Keeps d := by
  refine ⟨fun _ _ _ _ _ _ _ _ => ?_, fun _ _ _ _ _ _ => ?_, fun _ _ _ _ _ => ?_⟩
  · unfold Device.replyWriteZoneSetup
    split
    · split
      · split
        · trivial
        · exact .of_zone d _ fun h => h
      · trivial
    · trivial
  · unfold Device.replyWriteZoneLoop
    split
    · split
      · exact .of_zone d _ fun h => h
      · trivial
    · trivial
  · unfold Device.replyWriteZoneSafety
    split
    · split
      · exact .of_zone d _ fun h => h
      · trivial
    · trivial

theorem replySetZoneMode_keeps (hr : d.mailbox.ready = true) (mask mode : Word) : (d.replySetZoneMode mask mode).Keeps d := by
  unfold Device.replySetZoneMode
  split
  · trivial
  · split
    · trivial
    · split
      · trivial
      · exact .of_zones (d.commandZones_frame _ _) (d.commandZones_at _ _).told.capacity fun hn => by
          rw [hr] at hn
          cases hn

/-- R117: a written N keeps a unit sound. -/
theorem Timer.Sound.writeN {t : Timer} (h : t.Sound) {n : Nat} (hn : 1 ≤ n ∧ n ≤ 65535) : (t.writeN n).Sound := by
  unfold Timer.writeN
  split
  · next hc => exact ⟨h.n, hn, h.count, fun hi => h.idle hi⟩
  · next hc =>
    have h0 := h.idle (by simpa using hc)
    exact ⟨hn, h.latch, by show t.count < n; omega, fun _ => h0⟩

theorem Word.positive {n : Word} (h : ¬n = 0) : 1 ≤ n.toNat ∧ n.toNat ≤ 65535 := by
  have := n.isLt
  have : n.toNat ≠ 0 := fun he => h (BitVec.eq_of_toNat_eq he)
  omega

theorem replyWriteTimer_keeps (r : Byte) (mode input edge clock n hold : Word) : (d.replyWriteTimer r mode input edge clock n hold).Keeps d := by
  unfold Device.replyWriteTimer
  split
  · split
    · dsimp only
      split
      · trivial
      · next k m e c _ _ _ _ _ _ i h _ _ hn =>
        split
        · exact .of_timer d k fun h => h.writeN (Word.positive hn)
        · split
          · trivial
          · refine (KeepsBlocks.of_timer d k (x := d.timers[k].rewritten _ _ _ _ _ _) fun h => ?_).trans (.of_timer _ k fun h => ?_)
            · exact ⟨Word.positive hn, h.latch, (Word.positive hn).1, fun _ => rfl⟩
            · rw [Device.setTimer_read] at h
              exact ⟨h.n, h.latch, h.count, fun _ => rfl⟩
    · trivial
  · trivial

theorem replyWriteTerm_keeps (r : Byte) (a b c e table binding mask flag : Word) : (d.replyWriteTerm r a b c e table binding mask flag).Keeps d := by
  have hk : ∀ j t, KeepsBlocks d (d.rewriteTerm j t) := fun j t => by
    have hq : d.events.records.length ≤ 32 → (d.rewriteTerm j t).events.records.length ≤ 32 := by
      unfold Device.rewriteTerm
      dsimp only
      split
      · exact id
      · exact (Device.changeTerm_grows (d.setTerm j _) j _).capacity
    obtain ⟨_, _, hf⟩ := d.rewriteTerm_frame j t
    rw [hf] at hq ⊢
    exact .of_stand hq {}
  unfold Device.replyWriteTerm
  split
  · trivial
  · split
    · trivial
    · split
      · trivial
      · exact hk _ _

theorem replyRestorePermit_keeps (hr : d.mailbox.ready = true) : d.replyRestorePermit.Keeps d := by
  have hp : KeepsBlocks d { d with permit := .asserted } := .of_beside id rfl rfl rfl rfl (.refl d) id (fun hn => by
    rw [show d.mailbox.ready = false from hn] at hr
    cases hr) fun _ h => h
  unfold Device.replyRestorePermit
  split
  · trivial
  · split
    · exact hp.trans (.of_raise _ _ _ _)
    · trivial

/-! ## The Break Monitor -/

theorem replyWriteBreakConfig_keeps (r : Byte) (enable active membership time : Word) :
    (d.replyWriteBreakConfig r enable active membership time).Keeps d := by
  unfold Device.replyWriteBreakConfig
  split
  · split
    · next h =>
      exact .of_monitor d (as := d.actuators) (q := d.events) id id (fun k => k.congr (Word.positive h.2) rfl rfl rfl (.refl d)) fun _ h => h
    · trivial
  · trivial

theorem Device.armed_keepsBlocks (hr : d.mailbox.ready = true) (hd : d.monitor.state = .disarmed) : KeepsBlocks d d.armed := by
  refine .of_monitor d (as := d.actuators) (q := d.events) id id (fun h => ?_) fun hn => ?_
  · exact ⟨h.confirm, fun hs => (by cases hs), fun _ => ⟨rfl, rfl⟩, fun _ => h.phases (by rw [hd]; decide)⟩
  · rw [hr] at hn
    cases hn

/-- R160: every actuator ends its break phase. -/
theorem Actuator.endBreak_phase (x : Actuator) : x.endBreak.phase = .none := by
  unfold Actuator.endBreak
  split
  · assumption
  · rfl
  · rfl

theorem Device.endBreak_keepsBlocks (hb : d.monitor.state = .broken) : KeepsBlocks d d.endBreak := by
  refine .of_monitor d (d.events.offer_length _) id (fun h => ?_) fun _ _ => rfl
  refine ⟨h.confirm, fun hs => (by cases hs), fun _ => h.calm (by rw [hb]; decide), fun _ a => ?_⟩
  show (d.actuators.map Actuator.endBreak)[a].phase = .none
  rw [get_map]
  exact Actuator.endBreak_phase _

theorem replyBreak_keeps (hr : d.mailbox.ready = true) : d.replyArmBreak.Keeps d ∧ d.replyBreakNow.Keeps d ∧ d.replyResetBreak.Keeps d := by
  refine ⟨?_, ?_, ?_⟩
  · unfold Device.replyArmBreak
    split
    · trivial
    · next hd =>
      split
      · trivial
      · exact d.armed_keepsBlocks hr (not_not.mp hd)
  · unfold Device.replyBreakNow
    split
    · exact d.declareBreak_keepsBlocks _ _
    · trivial
  · unfold Device.replyResetBreak
    split
    · trivial
    · next hb =>
      split
      · trivial
      · split
        · trivial
        · exact d.endBreak_keepsBlocks (not_not.mp hb)

/-! ## Actuators -/

theorem replyActuator_keeps :
    (∀ r kind index fixed on off slew, (d.replyWriteActuatorSource r kind index fixed on off slew).Keeps d)
      ∧ (∀ r action value step delay, (d.replyWriteActuatorBreak r action value step delay).Keeps d)
      ∧ ∀ a v, (d.replySetOutput a v).Keeps d := by
  refine ⟨fun _ _ _ _ _ _ _ => ?_, fun _ _ _ _ _ => ?_, fun _ _ => ?_⟩
  · unfold Device.replyWriteActuatorSource
    split
    · split
      · exact .of_actuator d _ fun h => h
      · trivial
    · trivial
  · unfold Device.replyWriteActuatorBreak
    split
    · split
      · exact .of_actuator d _ fun h => h
      · trivial
    · trivial
  · unfold Device.replySetOutput
    split
    · trivial
    · dsimp only
      split
      · trivial
      · exact .of_actuator d _ fun h => h

/-! ## The Capture Buffer -/

theorem replyWriteCapturePostCount_keeps (p : Word) : (d.replyWriteCapturePostCount p).Keeps d := by
  unfold Device.replyWriteCapturePostCount
  split
  · dsimp only
    split
    · exact .of_capture d (q := d.events) id (fun h => h) fun _ h => h
    · exact .of_capture d (q := d.events) id (fun h => h) fun _ h => h
  · trivial

theorem replyWriteCaptureConfig_keeps (r : Byte) (mode decimation count : Word) (packed : Vector Word 4) :
    (d.replyWriteCaptureConfig r mode decimation count packed).Keeps d := by
  unfold Device.replyWriteCaptureConfig
  split
  · exact replyWriteCapturePostCount_keeps d mode
  · split
    · dsimp only
      split
      · split
        · trivial
        · split
          · trivial
          · exact .of_capture d (q := d.events) id (fun h => h) fun _ h => h
      · trivial
    · trivial
  · trivial

theorem replyCapture_keeps : d.replyCaptureStart.Keeps d ∧ d.replyCaptureStop.Keeps d ∧ d.replyCaptureClear.Keeps d
    ∧ d.replyCaptureTrigger.Keeps d ∧ d.replyReadCapture.Keeps d ∧ d.replyRewindCapture.Keeps d := by
  refine ⟨?_, ?_, ?_, ?_, ?_, ?_⟩
  · unfold Device.replyCaptureStart
    split
    · trivial
    · next hr =>
      exact .of_capture d (q := d.events) id (fun _ => .empty rfl rfl) fun hn => by simp [hn] at hr
  · unfold Device.replyCaptureStop
    split
    · trivial
    · exact .of_capture d (d.events.offer_length _) (fun h => h.congr rfl rfl) fun _ _ => .inr rfl
  · exact .of_capture d (q := d.events) id (fun _ => .empty rfl rfl) fun _ _ => .inl rfl
  · unfold Device.replyCaptureTrigger
    split
    · trivial
    · exact d.captureTrigger_keepsBlocks 0
  · unfold Device.replyReadCapture
    split
    · trivial
    · split
      · trivial
      · next hrec =>
        have hlt := (List.getElem?_eq_some_iff.mp hrec).1
        exact .of_capture d (q := d.events) id (fun h => ⟨h.1, hlt⟩) fun _ h => h
  · exact .of_capture d (q := d.events) id (fun h => ⟨h.1, Nat.zero_le _⟩) fun _ h => h

/-! ## Part state and Event Queue -/

theorem replyConfigureDone_keeps : d.replyConfigureDone.Keeps d := by
  unfold Device.replyConfigureDone
  split
  · trivial
  · split
    · trivial
    · exact .of_beside id rfl rfl rfl rfl (.refl d) (fun h => by cases h) (fun _ h => h) fun _ h => h

/-- R190: taking records of a class leaves no more than there were. -/
theorem takeClass_length (p n : Nat) (es : List EventRecord) : (takeClass p n es).2.length ≤ es.length := by
  induction es generalizing n with
  | nil => cases n <;> exact Nat.le_refl 0
  | cons e es ih =>
    cases n with
    | zero => exact Nat.le_refl _
    | succ n =>
      unfold takeClass
      split
      · exact Nat.le_succ_of_le (ih n)
      · exact Nat.succ_le_succ (ih (n + 1))

theorem EventQueue.select_length (q : EventQueue) (urgent : Bool) : (q.select urgent).2.length ≤ q.records.length := by
  unfold EventQueue.select
  split
  · exact takeClass_length _ _ _
  · rw [List.length_drop]
    exact Nat.sub_le _ _

theorem replyEvents_keeps : (∀ urgent, (d.replyReadEvents urgent).Keeps d) ∧ d.replyClearEvents.Keeps d :=
  ⟨fun urgent => .of_stand (d.events.select_length urgent).trans {}, .of_stand (fun _ => Nat.zero_le _) {}⟩

end

/-- R184: the reads. -/
def Cmd.reads : Cmd → Bool
  | .readSlotMap _ | .readChannel _ _ | .readChannelState _ | .readSpeedConfig _ | .readProfileShadow _ _ | .readProfileActive _ _ | .readZone _ _
  | .readZoneState _ | .readTimer _ | .readTimerState _ | .readTerm _ | .readBreakConfig _ | .readBreakHistory _ | .readActuator _ _
  | .readCaptureConfig _ => true
  | _ => false

/-- The reads answer, and change nothing. -/
theorem reply_of_reads (d : Device) (tag : Byte) {c : Cmd} (hc : c.reads = true) : ∃ rc ws, d.reply tag c = .answer rc ws := by
  cases c
  case readSlotMap =>
    simp only [Device.reply, Device.replyReadSlotMap]
    split
    · exact ⟨_, _, rfl⟩
    split
    · exact ⟨_, _, rfl⟩
    split <;> exact ⟨_, _, rfl⟩
  case readProfileShadow | readProfileActive =>
    simp only [Device.reply, replyReadBank]
    split <;> exact ⟨_, _, rfl⟩
  case readChannel | readChannelState | readSpeedConfig | readZone | readZoneState | readTimer | readTimerState | readTerm | readBreakConfig
      | readBreakHistory | readActuator | readCaptureConfig =>
    simp only [Device.reply, Device.replyReadChannel, Device.replyReadChannelState, Device.replyReadSpeedConfig, Device.replyReadZone,
      Device.replyReadZoneState, Device.replyReadTimer, Device.replyReadTimerState, Device.replyReadTerm, Device.replyReadBreakConfig,
      Device.replyReadBreakHistory, Device.replyReadActuator, Device.replyReadCaptureConfig]
    split <;> exact ⟨_, _, rfl⟩
  all_goals cases hc

/-- R183: every command that the part state lets through keeps the blocks sound. -/
theorem reply_keeps (d : Device) (tag : Byte) {c : Cmd} (hp : d.refusesByPart c = false) : (d.reply tag c).Keeps d := by
  cases hc : c.reads with
  | true =>
    obtain ⟨rc, ws, h⟩ := reply_of_reads d tag hc
    rw [h]
    trivial
  | false =>
    have ready : c.takenUnconfigured = false → d.mailbox.ready = true := fun ht => by simpa [Device.refusesByPart, ht] using hp
    obtain ⟨z1, z2, z3⟩ := replyWriteZone_keeps d
    obtain ⟨a1, a2, a3⟩ := replyActuator_keeps d
    obtain ⟨c1, c2, c3, c4, c5, c6⟩ := replyCapture_keeps d
    obtain ⟨e1, e2⟩ := replyEvents_keeps d
    cases c <;> simp only [Device.reply]
    case unknown | invalid | identify | readStatus => trivial
    case writeSlotMap => exact replyWriteSlotMap_keeps d _ _ _ _
    case writeChannelScale => exact replyWriteChannelScale_keeps d _ _ _ _ _ _ _
    case writeChannelLimits => exact replyWriteChannelLimits_keeps d _ _ _ _ _ _ _ _
    case writeSpeedConfig => exact replyWriteSpeedConfig_keeps d _ _ _ _ _ _
    case writeProfile => exact replyWriteProfile_keeps d _ _
    case commitProfile => exact replyCommitProfile_keeps d tag
    case writeZoneSetup => exact z1 _ _ _ _ _ _ _ _
    case writeZoneLoop => exact z2 _ _ _ _ _ _
    case writeZoneSafety => exact z3 _ _ _ _ _
    case setZoneMode => exact replySetZoneMode_keeps d (ready rfl) _ _
    case writeTimer => exact replyWriteTimer_keeps d _ _ _ _ _ _ _
    case writeTerm => exact replyWriteTerm_keeps d _ _ _ _ _ _ _ _ _
    case restorePermit => exact replyRestorePermit_keeps d (ready rfl)
    case writeBreakConfig => exact replyWriteBreakConfig_keeps d _ _ _ _ _
    case armBreak => exact (replyBreak_keeps d (ready rfl)).1
    case breakNow => exact (replyBreak_keeps d (ready rfl)).2.1
    case resetBreak => exact (replyBreak_keeps d (ready rfl)).2.2
    case writeActuatorSource => exact a1 _ _ _ _ _ _ _
    case writeActuatorBreak => exact a2 _ _ _ _ _
    case setOutput => exact a3 _ _
    case writeCaptureConfig => exact replyWriteCaptureConfig_keeps d _ _ _ _ _
    case captureStart => exact c1
    case captureStop => exact c2
    case captureClear => exact c3
    case captureTrigger => exact c4
    case readCapture => exact c5
    case rewindCapture => exact c6
    case configureDone => exact replyConfigureDone_keeps d
    case readEventsOldest | readEventsUrgent => exact e1 _
    case clearEvents => exact e2
    case softReset => exact .refl d
    all_goals cases hc

/-! ## Every operation and every step -/

theorem Device.handOff_keepsBlocks (d : Device) (tag : Byte) (c : Cmd) : KeepsBlocks d (d.handOff tag c) := by
  have result : ∀ (d' : Device) rc code data, KeepsBlocks d d' → KeepsBlocks d (d'.setResult rc tag code data) := fun d' rc code data h =>
    h.trans (.of_stand id {})
  unfold Device.handOff
  split
  · exact .refl d
  · split
    · exact d.softReset_keepsBlocks
    · split
      · unfold Device.execute
        split
        · exact result d _ _ _ (.refl d)
        · next hp =>
          have hk := reply_keeps d tag (by simpa using hp)
          generalize d.reply tag c = r at hk
          cases r with
          | answer rc data => exact result d _ _ _ (.refl d)
          | store d1 data => exact result d1 _ _ _ hk
          | settled e data => exact result _ _ _ _ (KeepsBlocks.run hk)
          | waits d1 => exact hk
      · exact .refl d

/-- What a run keeps of the blocks of its first state. -/
theorem blocks_kept (d0 : Device) : KeptByOperations (KeepsBlocks d0) where
  event := blocks_event d0
  command d tag c h := h.trans (d.handOff_keepsBlocks tag c)
  forgetBreak d h := h.trans (.of_stand id {})
  beginFrame d w h := h.trans (d.beginFrame_keepsBlocks w)
  word d w p h := h.trans (d.passAt_keepsBlocks w p)
  frame d f h := h.trans (.of_stand id {})
  close d g h := h.trans (.of_stand id {})
  delay d a h _ _ := h.trans (d.passActuator_keepsBlocks a)
  firstMark d l h := h.trans (d.firstAcceptance_keepsBlocks _ _ _).run
  firstWbrk d l h := h.trans (d.firstAcceptance_keepsBlocks _ _ _).run
  rise d straps h := h.trans (d.rstnRises_keepsBlocks straps)
  fall d h := h.trans (.of_stand id {})

/-- Settles O60: every operation that a step is made of keeps each block sound that was. -/
theorem stepKeepsTheBlocksSound : Obligations.StepKeepsTheBlocksSound := fun s t hs => by
  have h : KeepsBlocks s.dev t.dev := (blocks_kept s.dev).step s t (.refl _) hs
  refine ⟨fun hb => ?_, h.timers, fun hm hu => ?_⟩
  · obtain ⟨hq, hh, hv, hc⟩ := s.dev.bounded_iff.mp hb
    exact t.dev.bounded_iff.mpr ⟨h.queue hq, h.history hh, h.speed hv, h.capture hc⟩
  · obtain ⟨hm', hu'⟩ := h.idle ⟨hm, hu⟩
    exact ⟨hm', hu'⟩

end Sys2Proof.Machine

/-! A speed sample: history, acceleration, lead speed and speed state (O53). -/

namespace Sys2Proof.Machine

/-! ## The history (R46) -/

theorem pushSample_of_lt {h : List Int} (hl : h.length < 8) (v : Int) : pushSample h v = h ++ [v] :=
  congrArg (· ++ [v]) (if_pos hl)

/-- R46: the oldest of eight leaves first. -/
theorem pushSample_full {u : Int} {rest : List Int} (hl : rest.length = 7) (v : Int) : pushSample (u :: rest) v = rest ++ [v] := by
  have hn : ¬(u :: rest).length < Config.speedHistoryCapacity := by
    rw [List.length_cons, hl]
    decide
  unfold pushSample
  rw [if_neg hn]
  rfl

/-- R46: the history ends with the sample, and what it holds beside was held before. -/
theorem pushSample_eq (h : List Int) (v : Int) : ∃ rest, pushSample h v = rest ++ [v] ∧ ∀ u ∈ rest, u ∈ h := by
  unfold pushSample
  split
  · exact ⟨h, rfl, fun _ hu => hu⟩
  · exact ⟨h.drop 1, rfl, fun _ hu => List.mem_of_mem_drop hu⟩

/-! ## The acceleration (R46) -/

theorem acceleration_of_lt {h : List Int} (hl : h.length < 8) : acceleration h = 0 := if_neg (Nat.ne_of_lt hl)

/-- R46: newest minus oldest of eight. -/
theorem acceleration_full {u v : Int} {rest xs : List Int} (hx : u :: rest = xs ++ [v]) (hl : rest.length = 7) :
    acceleration (xs ++ [v]) = v - u := by
  have hlen : (xs ++ [v]).length = Config.speedHistoryCapacity := by
    rw [← hx, List.length_cons, hl]
    rfl
  have hhead : (xs ++ [v]).headD 0 = u := by rw [← hx]; rfl
  unfold acceleration
  rw [if_pos hlen, hhead, List.getLastD_concat]

/-- R46: the acceleration of samples in 0..1500. -/
theorem acceleration_bounds {h : List Int} (hb : ∀ u ∈ h, 0 ≤ u ∧ u ≤ 1500) : -1500 ≤ acceleration h ∧ acceleration h ≤ 1500 := by
  unfold acceleration
  split
  · next hl =>
    have hne : h ≠ [] := by
      rintro rfl
      cases hl
    have hlast : h.getLastD 0 ∈ h := by
      rw [List.getLastD_eq_getLast?, List.getLast?_eq_getLast_of_ne_nil hne]
      exact List.getLast_mem hne
    have hhead : h.headD 0 ∈ h := by
      rw [List.headD_eq_head?_getD, List.head?_eq_some_head hne]
      exact List.head_mem hne
    have := hb _ hlast
    have := hb _ hhead
    omega
  · omega

/-! ## The lead speed (R47) -/

/-- R47: the lead before its clamp, of a speed in 0..1500, an acceleration in −1500..1500 and a lead factor in 0..255. -/
theorem unclampedLead_bounds {v a k : Int} (hv : 0 ≤ v ∧ v ≤ 1500) (ha : -1500 ≤ a ∧ a ≤ 1500) (hk : 0 ≤ k ∧ k ≤ 255) :
    -47812 ≤ v + (a * k).tdiv 8 ∧ v + (a * k).tdiv 8 ≤ 49312 := by
  have hlow : -382500 ≤ a * k := by nlinarith
  have hhigh : a * k ≤ 382500 := by nlinarith
  have hlow' : -47812 ≤ (a * k).tdiv 8 := Int.tdiv_le_tdiv (by decide) hlow
  have hhigh' : (a * k).tdiv 8 ≤ 47812 := Int.tdiv_le_tdiv (by decide) hhigh
  omega

/-- Settles O53: the three steps of a sample, each by its lemma. -/
theorem speedSampleGivesLeadAndState : Obligations.SpeedSampleGivesLeadAndState := by
  intro x v hlen hrange hv0 hv1 hk0 hk1 y l
  obtain ⟨xs, hxs, hmem⟩ := pushSample_eq x.history v
  have hhistory : y.history = xs ++ [v] := hxs
  have hacc : y.a = acceleration (xs ++ [v]) := congrArg acceleration hxs
  have ha : -1500 ≤ y.a ∧ y.a ≤ 1500 := by
    rw [hacc]
    refine acceleration_bounds fun u hu => ?_
    rcases List.mem_append.mp hu with hu | hu
    · exact hrange u (hmem u hu)
    · rw [List.mem_singleton.mp hu]
      exact ⟨hv0, hv1⟩
  have hl : -47812 ≤ l ∧ l ≤ 49312 := unclampedLead_bounds ⟨hv0, hv1⟩ ha ⟨hk0, hk1⟩
  refine ⟨rfl, fun h => pushSample_of_lt h v, fun u rest hu hr => ?_, fun h => ?_, fun u rest hu hr => ?_, ha.1, ha.2, hl.1, hl.2, rfl, rfl,
    rfl, rfl, rfl, rfl, rfl⟩
  · show pushSample x.history v = _
    rw [hu, pushSample_full hr]
  · rw [hacc]
    exact acceleration_of_lt (hhistory ▸ h)
  · rw [hacc]
    exact acceleration_full (hu.symm.trans hhistory) hr

end Sys2Proof.Machine

/-! The writes of the Speed Tracker and of the Break Monitor (O29). -/

namespace Sys2Proof.Machine

/-! ## The Speed Tracker -/

/-- R43: the ranges of the speed configuration. -/
theorem speedConfigInRange_iff (crawl run band lead : Word) :
    speedConfigInRange (unsigned crawl) (unsigned run) (unsigned band) (unsigned lead) = true ↔
      crawl.toNat ≤ run.toNat ∧ run.toNat ≤ 1500 ∧ 1 ≤ band.toNat ∧ band.toNat ≤ 1500 ∧ lead.toNat ≤ 255 := by
  have hcrawl : inRange 0 1500 (unsigned crawl) = true ↔ 0 ≤ crawl.toNat ∧ crawl.toNat ≤ 1500 := inRange_unsigned 0 1500 crawl
  have hrun : inRange (unsigned crawl) 1500 (unsigned run) = true ↔ crawl.toNat ≤ run.toNat ∧ run.toNat ≤ 1500 := inRange_unsigned crawl.toNat 1500 run
  have hband : inRange 1 1500 (unsigned band) = true ↔ 1 ≤ band.toNat ∧ band.toNat ≤ 1500 := inRange_unsigned 1 1500 band
  have hlead : inRange 0 255 (unsigned lead) = true ↔ 0 ≤ lead.toNat ∧ lead.toNat ≤ 255 := inRange_unsigned 0 255 lead
  unfold speedConfigInRange
  simp only [Bool.and_eq_true, hcrawl, hrun, hband, hlead]
  omega

theorem Byte.toNat_ne_zero {r : Byte} (h : r ≠ 0) : r.toNat ≠ 0 := fun he => h (BitVec.eq_of_toNat_eq he)

/-- R43: a record other than 0 or a channel out of range names nothing. -/
theorem Device.replyWriteSpeedConfig_invalid (d : Device) {record : Byte} {channel : Word} (h : record ≠ 0 ∨ 32 ≤ channel.toNat)
    (crawl run band lead : Word) : d.replyWriteSpeedConfig record channel crawl run band lead = .badParam := by
  unfold Device.replyWriteSpeedConfig
  split
  · next hr hc =>
    rcases h with h | h
    · exact absurd hr (Byte.toNat_ne_zero h)
    · rw [wordIndex_of_le h] at hc
      cases hc
  · rfl

/-- R43, R50: the refusals of a speed write, and its two effects. -/
theorem Device.replyWriteSpeedConfig_of_eq (d : Device) {channel : Word} {c : Fin 32} (hc : channel.toNat = c.val) (crawl run band lead : Word) :
    d.replyWriteSpeedConfig 0 channel crawl run band lead =
      if speedConfigInRange (unsigned crawl) (unsigned run) (unsigned band) (unsigned lead) = true then
        let d1 := { d with speed := d.speed.write c (unsigned crawl) (unsigned run) (unsigned band) (unsigned lead) }
        if d.speed.speedChannel = c then .store d1 []
        else if d.mailbox.ready then .refused []
        else .settled { dev := d1 } fun _ => []
      else .badParam := by
  unfold Device.replyWriteSpeedConfig
  rw [wordIndex_of_eq hc]
  rfl

/-- The tracker with its configuration fields replaced. -/
def Speed.reconfigured (s : Speed) (c : Fin 32) (crawl run band lead : Int) : Speed :=
  { s with speedChannel := c, crawlSpeed := crawl, runSpeed := run, accelBand := band, leadFactor := lead }

theorem Speed.write_same {s : Speed} {c : Fin 32} (h : s.speedChannel = c) (crawl run band lead : Int) :
    s.write c crawl run band lead = s.reconfigured c crawl run band lead := if_pos h

/-- R50: another speed channel acts as a loss. -/
theorem Speed.write_other {s : Speed} {c : Fin 32} (h : s.speedChannel ≠ c) (crawl run band lead : Int) :
    s.write c crawl run band lead = (s.reconfigured c crawl run band lead).lose := if_neg h

/-- R43, R50: a speed write. -/
theorem speedWrite_replacesItsFields (tag record : Byte) (channel crawl run band lead : Word) (s : State) (hf : s.dev.Free) :
    let d := s.dev
    let writes := Instr.writeSpeedConfig tag record channel crawl run band lead
    let fits := crawl.toNat ≤ run.toNat ∧ run.toNat ≤ 1500 ∧ 1 ≤ band.toNat ∧ band.toNat ≤ 1500 ∧ lead.toNat ≤ 255
    (record ≠ 0 ∨ 32 ≤ channel.toNat ∨ ¬fits → Answers writes s tag 3 .badParam [])
    ∧ ∀ c : Fin 32, record = 0 → channel.toNat = c.val → fits →
        let x := d.speed.reconfigured c crawl.toNat run.toNat band.toNat lead.toNat
        (d.speed.speedChannel = c → Leaves writes s tag 3 { d with speed := x } [])
        ∧ (d.speed.speedChannel ≠ c → d.mailbox.ready = true → Answers writes s tag 3 .state [])
        ∧ (d.speed.speedChannel ≠ c → d.mailbox.ready = false → Settles writes s tag 3 { dev := { d with speed := x.lose } } fun _ => []) := by
  intro d writes fits
  have answers : ∀ {rc ws}, d.replyWriteSpeedConfig record channel crawl run band lead = .answer rc ws → Answers writes s tag 3 rc ws :=
    fun h => answers_of (c := .writeSpeedConfig record channel crawl run band lead) rfl hf (by simp) rfl (.inr rfl) h
  have hfits : _ ↔ fits := speedConfigInRange_iff crawl run band lead
  refine ⟨fun h => answers ?_, fun c hr hc h => ?_⟩
  · by_cases hnames : record ≠ 0 ∨ 32 ≤ channel.toNat
    · exact d.replyWriteSpeedConfig_invalid hnames crawl run band lead
    · obtain ⟨hr, hc⟩ := not_or.mp hnames
      have hnot : ¬fits := (h.resolve_left hr).resolve_left hc
      rw [not_not.mp hr, d.replyWriteSpeedConfig_of_eq (c := ⟨channel.toNat, Nat.not_le.mp hc⟩) rfl]
      exact if_neg (mt hfits.mp hnot)
  · subst hr
    intro x
    have hreply := (d.replyWriteSpeedConfig_of_eq hc crawl run band lead).trans (if_pos (hfits.mpr h))
    refine ⟨fun hs => ?_, fun hs hready => answers ?_, fun hs hready => ?_⟩
    · refine leaves_of (c := .writeSpeedConfig 0 channel crawl run band lead) rfl hf (by simp) rfl (.inr rfl) ?_
      refine (hreply.trans (if_pos hs)).trans ?_
      rw [Speed.write_same hs]
      rfl
    · exact (hreply.trans (if_neg hs)).trans (if_pos hready)
    · refine settles_of (c := .writeSpeedConfig 0 channel crawl run band lead) rfl hf (by simp) rfl (.inr rfl) ?_
      refine ((hreply.trans (if_neg hs)).trans (if_neg (by rw [hready]; decide))).trans ?_
      rw [Speed.write_other hs]
      rfl

/-! ## The Break Monitor -/

/-- R135: the refusals of a break write. -/
theorem Device.replyWriteBreakConfig_invalid (d : Device) {record : Byte} {enable active membership confirm : Word}
    (h : record ≠ 0 ∨ 1 < enable.toNat ∨ 1 < active.toNat ∨ 256 ≤ membership.toNat ∨ confirm = 0) :
    d.replyWriteBreakConfig record enable active membership confirm = .badParam := by
  unfold Device.replyWriteBreakConfig
  split
  · next hr hon hhigh =>
    refine if_neg fun hfits => ?_
    rcases h with h | h | h | h | h
    · exact Byte.toNat_ne_zero h hr
    · rw [yesNo_of_lt h] at hon
      cases hon
    · rw [yesNo_of_lt h] at hhigh
      cases hhigh
    · omega
    · exact hfits.2 h
  · rfl

theorem lowByte_setWidth (b : Byte) : lowByte (b.setWidth 16) = b := by
  apply BitVec.eq_of_toNat_eq
  have := b.isLt
  simp only [lowByte, BitVec.extractLsb'_toNat, BitVec.toNat_setWidth]
  omega

/-- R135: an accepted break write. -/
theorem Device.replyWriteBreakConfig_of_eq (d : Device) {enable active confirm : Word} {on high : Bool} {groups : Byte}
    (hon : enable = if on = true then 1 else 0) (hhigh : active = if high = true then 1 else 0) (hc : confirm ≠ 0) :
    d.replyWriteBreakConfig 0 enable active (groups.setWidth 16) confirm =
      .settled { dev := { d with monitor := { d.monitor with
          wbrkEnable := on, wbrkActive := high, membership := groups, confirmTime := confirm.toNat } } }
        fun t => [natWord t.monitor.state.code] := by
  have hgroups : (groups.setWidth 16 : Word).toNat < 256 := by
    have := groups.isLt
    rw [BitVec.toNat_setWidth]
    omega
  unfold Device.replyWriteBreakConfig
  rw [yesNo_of_eq hon, yesNo_of_eq hhigh, lowByte_setWidth]
  exact if_pos ⟨hgroups, hc⟩

/-- Settles O29: each table by its refusals and its effects. -/
theorem speedAndBreakWritesReplaceTheirFields : Obligations.SpeedAndBreakWritesReplaceTheirFields := by
  refine ⟨fun tag record channel crawl run band lead s hf => speedWrite_replacesItsFields tag record channel crawl run band lead s hf, ?_⟩
  intro tag record enable active membership confirm s hf d writes
  refine ⟨fun h => ?_, fun on high groups hr hon hhigh hm hc => ?_⟩
  · exact answers_of (c := .writeBreakConfig record enable active membership confirm) rfl hf (by simp) rfl (.inr rfl)
      (d.replyWriteBreakConfig_invalid h)
  · subst hr hm
    exact settles_of (c := .writeBreakConfig 0 enable active (groups.setWidth 16) confirm) rfl hf (by simp) rfl (.inr rfl)
      (d.replyWriteBreakConfig_of_eq hon hhigh hc)

end Sys2Proof.Machine

/-! The transitions of the MARK and WBRK lines (O21). -/

namespace Sys2Proof.Machine

/-! ## The rows -/

theorem exec_wbrkLevelChange (level : Bool) (s : State) : exec (.wbrkLevelChange level) s =
    .next { s with dev := s.dev.occur (s.dev.lines.wbrk == some !level) (s.dev.runJob (.wbrkLevel level)) } := rfl

theorem exec_markFirstAcceptance (level : Bool) (s : State) : exec (.markFirstAcceptance level) s =
    .next { s with dev := s.dev.occur s.dev.lines.mark.isNone <|
      s.dev.runEffect (s.dev.firstAcceptance { s.dev.lines with mark := some level } .markLevel level) } := rfl

theorem exec_wbrkFirstAcceptance (level : Bool) (s : State) : exec (.wbrkFirstAcceptance level) s =
    .next { s with dev := s.dev.occur s.dev.lines.wbrk.isNone <|
      s.dev.runEffect (s.dev.firstAcceptance { s.dev.lines with wbrk := some level } .wbrkLevel level) } := rfl

/-- R53: the change of an accepted MARK level. -/
theorem exec_markLevelChange_taken {level : Bool} {s : State} (hr : s.dev.lines.rstn = true) (hm : s.dev.lines.mark = some (!level)) :
    exec (.markLevelChange level) s = .next { s with dev := s.dev.markChange level } := by
  rw [exec_markLevelChange, hm, beq_self_eq_true, Device.occur_true hr]

theorem exec_wbrkLevelChange_taken {level : Bool} {s : State} (hr : s.dev.lines.rstn = true) (hw : s.dev.lines.wbrk = some (!level)) :
    exec (.wbrkLevelChange level) s = .next { s with dev := s.dev.runJob (.wbrkLevel level) } := by
  rw [exec_wbrkLevelChange, hw, beq_self_eq_true, Device.occur_true hr]

/-! ## A first acceptance -/

/-- R106, R113: a unit that takes a level without an edge; a COUNT unit acts on the level. -/
theorem Timer.takeLevel_eq (x : Timer) (level : Bool) :
    x.takeLevel level = { x with inputLevel := level, count := if x.mode = .count ∧ level = true then 0 else x.count } := by
  cases hm : x.mode with
  | count => cases level <;> simp [Timer.takeLevel, Timer.takeEdge, hm]
  | delay | oneShot | gap | edge => simp [Timer.takeLevel, hm]

/-- R52, R121: what a first acceptance sets before the terms settle. -/
theorem Device.firstAcceptance_eq (d : Device) (lines : Lines) (c : Cond) (level : Bool) :
    d.firstAcceptance lines c level = { dev := { d with
      lines := lines
      timers := d.timers.map fun x => if x.input = c then
        { x with inputLevel := level, count := if x.mode = .count ∧ level = true then 0 else x.count } else x } } := by
  simp only [Device.firstAcceptance, Timer.takeLevel_eq]

/-! ## What a change of MARK leaves -/

/-- R53: the events of a change of MARK. -/
theorem mem_markRoots {d : Device} {level : Bool} {j : Job} (h : j ∈ Job.markLevel level :: (if level then d.clockRoots .mark else [])) :
    j = .markLevel level ∨ (level = true ∧ ∃ k : Fin 6, j = .timerClock k .mark) := by
  rcases List.mem_cons.mp h with h | h
  · exact .inl h
  · cases level with
    | false => cases h
    | true =>
      obtain ⟨k, -, rfl⟩ := List.mem_map.mp h
      exact .inr ⟨rfl, k, rfl⟩

theorem markRoots_modest {d : Device} {level : Bool} : ∀ j ∈ Job.markLevel level :: (if level then d.clockRoots .mark else []), j.Modest := by
  intro j hj
  rcases mem_markRoots hj with rfl | ⟨-, k, rfl⟩
  · exact fun _ _ _ h => by cases h
  · exact fun _ _ _ h => by cases h

/-- R53: the clocks of a change of MARK at one unit. -/
theorem markRoots_unit (d : Device) (level : Bool) (k : Fin 6) :
    (Job.markLevel level :: (if level then d.clockRoots .mark else [])).filter (Job.movesUnit k)
      = if level = true ∧ d.timers[k].clock = .mark then [.timerClock k .mark] else [] := by
  rw [List.filter_cons_of_neg (by simp [Job.movesUnit, Job.block])]
  cases level with
  | false => rfl
  | true =>
    rw [if_pos rfl, d.clockRoots_unit .mark k]
    simp only [beq_iff_eq, true_and]

theorem Job.fromOutside_of_movesLines {j : Job} (h : j.movesLines = true) : j.fromOutside = true := by
  cases j
  case markLevel | wbrkLevel => rfl
  all_goals cases h

/-- R53: the line is at its new level, once. -/
theorem Device.markChange_lines (d : Device) (level : Bool) : (d.markChange level).lines = { d.lines with mark := some level } := by
  have t := once_tracks (kind := Job.movesLines) (some (.markLevel level)) (f := Device.lines) (x := d.lines)
    (y := { d.lines with mark := some level }) (fun _ => Job.fromOutside_of_movesLines) (fun _ _ => rfl)
    (fun ws d j m hj => (settled_act_spares ws d j m).lines hj)
    (fun ws d' m j hj hd => by
      cases hj
      obtain ⟨_, _, _, _, hs⟩ := settled_frame d' (act ws d' (.markLevel level)) m
      rw [hs, ← hd]
      rfl) rfl
  have hroots : (Job.markLevel level :: (if level then d.clockRoots .mark else [])).filter Job.movesLines = [.markLevel level] := by
    rw [List.filter_cons_of_pos rfl]
    refine congrArg _ (List.filter_eq_nil_iff.mpr fun j hj => ?_)
    split at hj
    · obtain ⟨k, -, rfl⟩ := List.mem_map.mp hj
      simp [Job.movesLines]
    · cases hj
  exact (t.runRoots d _ markRoots_modest (fun _ _ => trivial) (.inl ⟨hroots, rfl⟩)).done fun h => by cases h

/-- R53, R107: a unit that stands alone takes the MARK clock of a rise, and nothing else. -/
theorem Device.markChange_alone {d : Device} {k : Fin 6} (hx : d.timers[k].Alone) {level held : Bool}
    (hh : level = true → d.timers[k].clock = .mark → d.timers[k].hold = .fixed held) :
    (d.markChange level).timers[k] = if level = true ∧ d.timers[k].clock = .mark then d.timers[k].clocked held else d.timers[k] := by
  have hroots := markRoots_unit d level k
  have hrun := Device.runRoots_unit (command := id) hx (held := held) (fun _ _ => rfl) (markRoots_modest (d := d) (level := level))
  rw [hroots] at hrun
  unfold Device.markChange
  split at hrun
  · next h =>
    rw [if_pos h]
    refine hrun (fun j hj => ?_) fun _ d' => ?_
    · rw [List.mem_singleton.mp hj, h.2]
    · rw [hh h.1 h.2]
      rfl
  · next h =>
    rw [if_neg h]
    exact hrun (fun j hj => by cases hj) fun hn => absurd rfl hn

/-- R107: where no unit is clocked, a unit with a constant input stands. -/
theorem unclocked_kept {k : Fin 6} {x : Timer} (hx : x.input.isFixed = true) :
    KeptByEvent (fun d => d.timers[k] = x) fun j => j.movesUnit k = false ∧ ∀ i source, j ≠ .timerClock i source where
  choose d n h := by
    obtain ⟨o, ho⟩ := d.choose_dev n
    rw [ho]
    exact h
  act ws d j m h hj := (event_unit ws d hj.1 m).trans h
  handsOn ws d j m h hj y hy := by
    rcases mem_handedOn hy with hy | hy
    · cases mem_act_next hy with
      | cascade i source => exact absurd rfl (hj.2 i source)
      | _ => exact ⟨rfl, fun _ _ he => by cases he⟩
    · cases hy with
      | edge i hi =>
        refine ⟨?_, fun _ _ he => by cases he⟩
        by_cases hik : i = k
        · subst hik
          refine absurd (Device.level_isFixed ?_) hi
          rw [(settled_wiring ws d j m i).input, h]
          exact hx
        · simp [Job.movesUnit, Job.block, hik]
      | _ => exact ⟨rfl, fun _ _ he => by cases he⟩

/-- R53: a fall of MARK clocks no unit. -/
theorem Device.markChange_fall {d : Device} {k : Fin 6} (hx : d.timers[k].input.isFixed = true) : (d.markChange false).timers[k] = d.timers[k] :=
  Device.runRoots_keeps (unclocked_kept hx) (fun _ h => h) d [.markLevel false] rfl fun j hj => by
    rw [List.mem_singleton.mp hj]
    exact ⟨rfl, fun _ _ he => by cases he⟩

/-- R107: where no unit is clocked by MARK, a change of it is the one event. -/
theorem Device.markChange_single {d : Device} {level : Bool} (h : level = false ∨ ∀ k : Fin 6, d.timers[k].clock ≠ .mark) :
    d.markChange level = d.runJob (.markLevel level) := by
  have hclocks : (if level then d.clockRoots .mark else []) = [] := by
    split
    · next hl =>
      have hne := h.resolve_left (by rw [hl]; decide)
      unfold Device.clockRoots
      rw [List.filter_eq_nil_iff.mpr fun k _ => by simpa using hne k]
      rfl
    · rfl
  unfold Device.markChange
  rw [hclocks]
  exact d.runRoots_single _ (by simp)

/-- R107, R108: a unit with a constant input at a change of MARK. -/
theorem Device.markChange_unit {d : Device} {level : Bool} {k : Fin 6} (hx : d.timers[k].input.isFixed = true) :
    (level = true → d.timers[k].clock = .mark → d.timers[k].hold = .fixed false → (d.markChange level).timers[k] = d.timers[k].takeClock.1)
      ∧ (level = true → d.timers[k].clock = .mark → d.timers[k].hold = .fixed true → (d.markChange level).timers[k] = d.timers[k])
      ∧ (level = false ∨ d.timers[k].clock = .tick ∨ d.timers[k].clock = .cycle → (d.markChange level).timers[k] = d.timers[k]) := by
  have alone : d.timers[k].clock = .mark → d.timers[k].Alone := fun hc => ⟨hx, by rw [hc]; decide⟩
  refine ⟨fun hl hc hh => ?_, fun hl hc hh => ?_, fun h => ?_⟩
  · exact (Device.markChange_alone (alone hc) fun _ _ => hh).trans (if_pos ⟨hl, hc⟩)
  · exact (Device.markChange_alone (alone hc) fun _ _ => hh).trans (if_pos ⟨hl, hc⟩)
  · rcases h with rfl | h
    · exact Device.markChange_fall hx
    · have hne : d.timers[k].clock ≠ .mark := by rcases h with h | h <;> rw [h] <;> decide
      have hal : d.timers[k].Alone := ⟨hx, by rcases h with h | h <;> rw [h] <;> decide⟩
      exact (Device.markChange_alone hal (held := false) fun _ hc => absurd hc hne).trans (if_neg fun hc => hne hc.2)

/-- Settles O21: each row by what it names, and the units at a change of MARK. -/
theorem lineTransitionsAreTaken : Obligations.LineTransitionsAreTaken := by
  intro level s hr
  refine ⟨fun hm => exec_markLevelChange_taken hr hm, fun hm => ⟨_, exec_markLevelChange_taken hr hm, s.dev.markChange_lines level, fun k hx =>
    Device.markChange_unit hx⟩, fun hm h => ?_, fun hw => exec_wbrkLevelChange_taken hr hw, fun hm => ?_, fun hw => ?_, fun hm => ?_, fun hw => ?_,
    fun hm => ?_, fun hw => ?_⟩
  · exact (exec_markLevelChange_taken hr hm).trans (by rw [Device.markChange_single h]; rfl)
  · rw [exec_markFirstAcceptance, hm, Option.isNone_none, Device.occur_true hr, Device.firstAcceptance_eq]
  · rw [exec_wbrkFirstAcceptance, hw, Option.isNone_none, Device.occur_true hr, Device.firstAcceptance_eq]
  · rw [exec_markLevelChange, beq_eq_false_iff_ne.mpr hm, Device.occur_false]
  · rw [exec_wbrkLevelChange, beq_eq_false_iff_ne.mpr hw, Device.occur_false]
  · rw [exec_markFirstAcceptance, Option.isNone_eq_false_iff.mpr (Option.isSome_iff_ne_none.mpr hm), Device.occur_false]
  · rw [exec_wbrkFirstAcceptance, Option.isNone_eq_false_iff.mpr (Option.isSome_iff_ne_none.mpr hw), Device.occur_false]

end Sys2Proof.Machine

/-! What an edge and a clock do in each timer mode (O55, first part). -/

namespace Sys2Proof.Machine

theorem EdgeSelect.selects_iff (e : EdgeSelect) (level : Bool) :
    e.selects level = true ↔ e = .both ∨ (e = .rise ∧ level = true) ∨ (e = .fall ∧ level = false) := by
  cases e <;> simp [EdgeSelect.selects]

/-- The N with which a count goes on once a pending latch has been loaded. -/
def Timer.loadedN (x : Timer) : Nat := if x.latchPending = true then x.latchN else x.n

theorem Timer.loadLatch_eq (x : Timer) : x.loadLatch = { x with n := x.loadedN, latchPending := false } := by
  unfold Timer.loadLatch Timer.loadedN
  split
  · rfl
  · next h => rw [← Bool.eq_false_iff.mpr h]

/-- The unit at a new input level, with a count started. -/
def Timer.startedAt (x : Timer) (level : Bool) : Timer :=
  { x with inputLevel := level, n := x.loadedN, latchPending := false, counting := true, count := 0 }

theorem Timer.start_eq (x : Timer) (level : Bool) : ({ x with inputLevel := level } : Timer).start = x.startedAt level := by
  unfold Timer.start
  rw [Timer.loadLatch_eq]
  rfl

section
variable {x : Timer} {level : Bool}

/-! ## Edges -/

/-- R109. -/
theorem Timer.takeEdge_delay (hm : x.mode = .delay) : x.takeEdge level =
    if x.edge.selects level = true then x.startedAt level else { x with inputLevel := level, counting := false, count := 0, output := level } := by
  rw [← x.start_eq level]
  cases x
  cases hm
  rfl

/-- R110, R112. -/
theorem Timer.takeEdge_oneShot (hm : x.mode = .oneShot ∨ x.mode = .edge) : x.takeEdge level =
    if (x.edge.selects level && !x.output) = true then { x.startedAt level with output := true } else { x with inputLevel := level } := by
  rw [← x.start_eq level]
  cases x
  rcases hm with hm | hm <;> cases hm <;> rfl

/-- R111. -/
theorem Timer.takeEdge_gap (hm : x.mode = .gap) : x.takeEdge level =
    if x.edge.selects level = true then { x.startedAt level with output := if x.counting = true then true else x.output }
    else { x with inputLevel := level } := by
  have hgap : x.takeEdge level = if x.edge.selects level = true then
      (if x.counting = true then { x.startedAt level with output := true } else x.startedAt level) else { x with inputLevel := level } := by
    rw [← x.start_eq level]
    cases x
    cases hm
    rfl
  rw [hgap]
  by_cases hc : x.counting = true
  · simp only [if_pos hc]
  · simp only [if_neg hc]
    rfl

/-- R113. -/
theorem Timer.takeEdge_count (hm : x.mode = .count) :
    x.takeEdge level = { x with inputLevel := level, count := if level = true then 0 else x.count } := by
  cases x
  cases hm
  cases level <;> rfl

/-! ## Clocks -/

theorem Timer.takeClock_idle (hm : x.mode ≠ .count) (hc : x.counting = false) : x.takeClock = (x, false) := by
  cases hx : x.mode with
  | count => exact absurd hx hm
  | delay | oneShot | gap | edge => simp [Timer.takeClock, hx, hc]

theorem Timer.takeClock_delay (hm : x.mode = .delay) (hc : x.counting = true) : x.takeClock =
    if x.n ≤ x.count + 1 then ({ x with counting := false, count := 0, output := x.inputLevel }, true) else ({ x with count := x.count + 1 }, false) := by
  cases x
  cases hm
  cases hc
  rfl

theorem Timer.takeClock_oneShot (hm : x.mode = .oneShot ∨ x.mode = .gap) (hc : x.counting = true) : x.takeClock =
    if x.n ≤ x.count + 1 then ({ x with counting := false, count := 0, output := false }, true) else ({ x with count := x.count + 1 }, false) := by
  cases x
  cases hc
  rcases hm with hm | hm <;> cases hm <;> rfl

theorem Timer.takeClock_edge (hm : x.mode = .edge) (hc : x.counting = true) :
    x.takeClock = ({ x with counting := false, count := 0, output := false }, true) := by
  cases x
  cases hm
  cases hc
  rfl

theorem Timer.takeClock_count (hm : x.mode = .count) : x.takeClock =
    if x.inputLevel = true then ({ x with output := false }, false)
    else if x.n ≤ x.count + 1 then ({ x with count := 0, n := x.loadedN, latchPending := false, output := true }, true)
    else ({ x with output := false, count := x.count + 1 }, false) := by
  have hload : ({ x with count := 0 } : Timer).loadLatch = { x with count := 0, n := x.loadedN, latchPending := false } :=
    Timer.loadLatch_eq { x with count := 0 }
  have hend : ({ x with count := 0, n := x.loadedN, latchPending := false, output := true } : Timer)
      = { ({ x with count := 0 } : Timer).loadLatch with output := true } := by rw [hload]
  rw [hend]
  cases x
  cases hm
  rfl

end

/-- R109 to R113: edges and clocks, mode by mode. -/
theorem timerModes (x : Timer) (level : Bool) :
    let selected := x.edge = .both ∨ (x.edge = .rise ∧ level = true) ∨ (x.edge = .fall ∧ level = false)
    let ends := x.n ≤ x.count + 1
    (x.mode = .delay → selected → x.takeEdge level = x.startedAt level)
    ∧ (x.mode = .delay → ¬selected → x.takeEdge level = { x with inputLevel := level, counting := false, count := 0, output := level })
    ∧ (x.mode = .oneShot ∨ x.mode = .edge → selected → x.output = false → x.takeEdge level = { x.startedAt level with output := true })
    ∧ (x.mode = .oneShot ∨ x.mode = .edge → ¬selected ∨ x.output = true → x.takeEdge level = { x with inputLevel := level })
    ∧ (x.mode = .gap → selected → x.takeEdge level = { x.startedAt level with output := if x.counting = true then true else x.output })
    ∧ (x.mode = .gap → ¬selected → x.takeEdge level = { x with inputLevel := level })
    ∧ (x.mode = .count → x.takeEdge level = { x with inputLevel := level, count := if level = true then 0 else x.count })
    ∧ (x.mode ≠ .count → x.counting = false → x.takeClock = (x, false))
    ∧ (x.mode = .delay → x.counting = true → x.takeClock =
        if ends then ({ x with counting := false, count := 0, output := x.inputLevel }, true)
        else ({ x with count := x.count + 1 }, false))
    ∧ (x.mode = .oneShot ∨ x.mode = .gap → x.counting = true → x.takeClock =
        if ends then ({ x with counting := false, count := 0, output := false }, true) else ({ x with count := x.count + 1 }, false))
    ∧ (x.mode = .edge → x.counting = true → x.takeClock = ({ x with counting := false, count := 0, output := false }, true))
    ∧ (x.mode = .count → x.inputLevel = true → x.takeClock = ({ x with output := false }, false))
    ∧ (x.mode = .count → x.inputLevel = false → x.takeClock =
        if ends then ({ x with count := 0, n := x.loadedN, latchPending := false, output := true }, true)
        else ({ x with output := false, count := x.count + 1 }, false)) := by
  intro selected ends
  have hsel : x.edge.selects level = true ↔ selected := x.edge.selects_iff level
  refine ⟨fun hm hs => ?_, fun hm hs => ?_, fun hm hs ho => ?_, fun hm hs => ?_, fun hm hs => ?_, fun hm hs => ?_, Timer.takeEdge_count,
    Timer.takeClock_idle, Timer.takeClock_delay, Timer.takeClock_oneShot, Timer.takeClock_edge, fun hm hl => ?_, fun hm hl => ?_⟩
  · exact (Timer.takeEdge_delay hm).trans (if_pos (hsel.mpr hs))
  · exact (Timer.takeEdge_delay hm).trans (if_neg (mt hsel.mp hs))
  · exact (Timer.takeEdge_oneShot hm).trans (if_pos (by rw [hsel.mpr hs, ho]; rfl))
  · refine (Timer.takeEdge_oneShot hm).trans (if_neg fun h => ?_)
    obtain ⟨h1, h2⟩ := Bool.and_eq_true_iff.mp h
    rcases hs with hs | hs
    · exact hs (hsel.mp h1)
    · rw [hs] at h2
      cases h2
  · exact (Timer.takeEdge_gap hm).trans (if_pos (hsel.mpr hs))
  · exact (Timer.takeEdge_gap hm).trans (if_neg (mt hsel.mp hs))
  · exact (Timer.takeClock_count hm).trans (if_pos hl)
  · exact (Timer.takeClock_count hm).trans (if_neg (by rw [hl]; decide))

end Sys2Proof.Machine

/-! A change of MARK at a unit that reads it, or that reads a term which it moves (O55, second part). -/

namespace Sys2Proof.Machine

/-! ## Edges and clocks at one unit -/

/-- R106: the unit after a change of its input to a level; at that level already, it takes no edge. -/
def Timer.edged (y : Timer) (v : Bool) : Timer := if y.inputLevel = v then y else y.takeEdge v

theorem Device.edgeTimer_unit {d : Device} {k : Fin 6} {c : Cond} (h : d.timers[k].input = c) (v : Bool) :
    (d.edgeTimer k c v).timers[k] = d.timers[k].edged v := by
  unfold Device.edgeTimer Timer.edged
  dsimp only
  by_cases hv : d.timers[k].inputLevel = v
  · rw [if_pos (.inr hv), if_pos hv]
  · rw [if_neg fun h' => h'.elim (fun hne => hne h) hv, if_neg hv]
    exact d.setTimer_read k _

theorem Timer.edged_wiring (y : Timer) (v : Bool) : y.SameWiring (y.edged v) := by
  unfold Timer.edged
  split
  · exact .refl y
  · exact y.takeEdge_wiring v

theorem Timer.SameWiring.trans {a b c : Timer} (h : a.SameWiring b) (k : b.SameWiring c) : a.SameWiring c :=
  ⟨k.input.trans h.input, k.clock.trans h.clock, k.hold.trans h.hold⟩

/-- What a unit that began as `x` has become, by whether it has taken the edge to `v` and whether it has taken the clock, in either order. -/
def Timer.Took (x : Timer) (v held : Bool) : Bool → Bool → Timer → Prop
  | false, false, y => y = x
  | true, false, y => y = x.edged v
  | false, true, y => y = x.clocked held
  | true, true, y => y = (x.edged v).clocked held ∨ y = (x.clocked held).edged v

theorem Timer.Took.edge {x y : Timer} {v held c : Bool} (h : x.Took v held false c y) : x.Took v held true c (y.edged v) := by
  cases c with
  | false => exact congrArg (Timer.edged · v) h
  | true => exact .inr (congrArg (Timer.edged · v) h)

theorem Timer.Took.clock {x y : Timer} {v held e : Bool} (h : x.Took v held e false y) : x.Took v held e true (y.clocked held) := by
  cases e with
  | false => exact congrArg (Timer.clocked · held) h
  | true => exact .inl (congrArg (Timer.clocked · held) h)

theorem Timer.Took.wiring {x y : Timer} {v held e c : Bool} (h : x.Took v held e c y) : x.SameWiring y := by
  cases e <;> cases c
  · rw [show y = x from h]
    exact .refl x
  · rw [show y = x.clocked held from h]
    exact x.clocked_wiring held
  · rw [show y = x.edged v from h]
    exact x.edged_wiring v
  · rcases h with rfl | rfl
    · exact (x.edged_wiring v).trans (Timer.clocked_wiring _ held)
    · exact (x.clocked_wiring held).trans (Timer.edged_wiring _ v)

/-! ## What an event hands on to one unit -/

/-- The events at a unit and those at the lines. -/
def Job.atUnit (k : Fin 6) (j : Job) : Bool := j.movesUnit k || j.movesLines

theorem flatMap_only {α β : Type} {xs : List α} (hn : xs.Nodup) {k : α} (hk : k ∈ xs) {f : α → List β} (h : ∀ i, i ≠ k → f i = []) :
    xs.flatMap f = f k := by
  induction xs with
  | nil => cases hk
  | cons a xs ih =>
    obtain ⟨ha, hn⟩ := List.nodup_cons.mp hn
    rw [List.flatMap_cons]
    rcases List.mem_cons.mp hk with rfl | hk
    · rw [List.flatMap_eq_nil_iff.mpr fun i hi => h i fun he => ha (he ▸ hi), List.append_nil]
    · rw [h a fun he => ha (he ▸ hk), ih hn hk, List.nil_append]

/-- R106, R123: the reaction of one unit to a settled change. -/
theorem timerReactions_unit (d0 d : Device) (b : Bool) (k : Fin 6) : (timerReactions d0 d b).filter (Job.atUnit k) =
    if d.timers[k].input.isTerm = b ∧ d0.level d.timers[k].input ≠ d.level d.timers[k].input then
      [.timerEdge k d.timers[k].input (d.level d.timers[k].input)] else [] := by
  unfold timerReactions
  rw [List.filter_flatMap, flatMap_only (List.nodup_finRange 6) (List.mem_finRange k)]
  · dsimp only
    split
    · next h => rw [if_pos (by simpa using h), List.filter_cons_of_pos (by simp [Job.atUnit, Job.movesUnit, Job.block]), List.filter_nil]
    · next h => rw [if_neg (by simpa using h), List.filter_nil]
  · intro i hi
    dsimp only
    split
    · exact List.filter_cons_of_neg (by simp [Job.atUnit, Job.movesUnit, Job.movesLines, Job.block, hi])
    · rfl

/-- R106, R114: what an event hands on to a unit that no cascade clocks: the edge, where its input has moved. -/
theorem handedOn_unit {ws : List Job} {d : Device} {j : Job} {k : Fin 6} (hc : d.timers[k].clock ≠ .cascade) (m : TermSet) :
    let d' := settled d (act ws d j) m
    (handedOn d (act ws d j) m).filter (Job.atUnit k) =
      if d.level d.timers[k].input ≠ d'.level d.timers[k].input then [.timerEdge k d.timers[k].input (d'.level d.timers[k].input)] else [] := by
  intro d'
  have hinput : d'.timers[k].input = d.timers[k].input := (settled_wiring ws d j m k).input
  have hnext : (act ws d j).next.filter (Job.atUnit k) = [] := List.filter_eq_nil_iff.mpr fun x hx hk => by
    cases mem_act_next hx with
    | cascade i source hi =>
      have : nextUnit i = k := by simpa [Job.atUnit, Job.movesUnit, Job.movesLines, Job.block] using hk
      subst this
      exact hc hi
    | _ => simp [Job.atUnit, Job.movesUnit, Job.movesLines, Job.block] at hk
  have hleft : (leftToRaise d (act ws d j) m).filter (Job.atUnit k) = [] := List.filter_eq_nil_iff.mpr fun x hx => by
    obtain ⟨s, r, -, rfl⟩ := mem_leftToRaise hx
    simp [Job.atUnit, Job.movesUnit, Job.movesLines, Job.block]
  have hcapture : (captureReactions d d').filter (Job.atUnit k) = [] := List.filter_eq_nil_iff.mpr fun x hx => by
    obtain ⟨ns, rfl⟩ := mem_captureReactions_trigger hx
    simp [Job.atUnit, Job.movesUnit, Job.movesLines, Job.block]
  unfold handedOn directReactions termReactions
  simp only [List.filter_append]
  rw [hnext, hleft, hcapture, timerReactions_unit, timerReactions_unit, demandReactions_filter (fun _ _ => rfl), hardReactions_filter (fun _ _ => rfl),
    hardReactions_filter (fun _ _ => rfl), softReactions_filter (fun _ => rfl) rfl, hinput]
  cases d.timers[k].input.isTerm <;> simp [d']

/-! ## The events of a change of MARK -/

/-- What comes with a change of MARK or follows from it: a MARK clock, or no event from outside. -/
def Job.followsMark (j : Job) : Prop := j.fromOutside = false ∨ ∃ k : Fin 6, j = .timerClock k .mark

theorem Job.followsMark.plain {j : Job} (h : j.followsMark) :
    (∀ i, j ≠ .deferredTerm i) ∧ (∀ l, j ≠ .markLevel l) ∧ j.movesLines = false := by
  rcases h with h | ⟨k, rfl⟩
  · cases j
    case deferredTerm | markLevel | wbrkLevel => cases h
    all_goals exact ⟨fun _ => Job.noConfusion, fun _ => Job.noConfusion, rfl⟩
  · exact ⟨fun _ => Job.noConfusion, fun _ => Job.noConfusion, rfl⟩

/-- A condition that the change of MARK to `level` moves to `v`, once, and that nothing else moves: it holds `Before` until then, with whether no term
has changed yet, and `After` from then on. -/
structure MovedByMark (level : Bool) (c : Cond) (v : Bool) (Before : Bool → Device → Prop) (After : Device → Prop) : Prop where
  choicesBefore : ∀ {b d} (o : Choices), Before b d → Before b { d with choices := o }
  choicesAfter : ∀ {d} (o : Choices), After d → After { d with choices := o }
  levelBefore : ∀ {b d}, Before b d → d.level c = !v
  levelAfter : ∀ {d}, After d → d.level c = v
  staysBefore : ∀ {b d ws j m}, Before b d → j.followsMark → (b = true → m = (act ws d j).mask d) →
    Before (b && (settle d (act ws d j).dev m).2 == 0) (settled d (act ws d j) m)
  staysAfter : ∀ {d ws j m}, After d → j.followsMark → After (settled d (act ws d j) m)
  moves : ∀ {b d ws m}, Before b d → (b = true → m = (act ws d (.markLevel level)).mask d) → After (settled d (act ws d (.markLevel level)) m)

/-- R123: the MARK level itself. -/
theorem markLevel_movedByMark (level : Bool) :
    MovedByMark level .markLevel level (fun _ d => d.lines.mark = some (!level)) fun d => d.lines.mark = some level where
  choicesBefore _ h := h
  choicesAfter _ h := h
  levelBefore {_ d} h := by
    show (d.lines.mark == some true) = !level
    rw [h]
    cases level <;> rfl
  levelAfter {d} h := by
    show (d.lines.mark == some true) = level
    rw [h]
    cases level <;> rfl
  staysBefore {_ d ws j m} h hj _ := by
    rw [(settled_act_spares ws d j m).lines hj.plain.2.2]
    exact h
  staysAfter {d ws j m} h hj := by
    rw [(settled_act_spares ws d j m).lines hj.plain.2.2]
    exact h
  moves {_ d ws m} _ _ := by
    obtain ⟨_, _, _, _, hs⟩ := settled_frame d (act ws d (.markLevel level)) m
    rw [hs]
    rfl

/-- R122, R123: a term that the change of MARK moves. -/
theorem term_movedByMark {level : Bool} {j : Fin 8} {v : Bool} {d0 : Device} (h0 : d0.MarkMovesTerm level j v) :
    MovedByMark level (.term j) v (fun b d => b = true ∧ d.terms = d0.terms ∧ d.lines = d0.lines) (TermMoved j v d0) where
  choicesBefore _ h := h
  choicesAfter _ h := ⟨h.others, h.moved⟩
  levelBefore {_ d} h := by
    obtain ⟨-, ht, -⟩ := h
    obtain ⟨-, -, -, -, -, hval, -⟩ := h0
    show d.terms[j].value = !v
    rw [ht]
    exact hval
  levelAfter {d} h := by
    show d.terms[j].value = v
    rw [h.moved]
  staysBefore {b d ws i m} h hi hmask := by
    obtain ⟨hb, ht, hl⟩ := h
    obtain ⟨hd, hm, hlines⟩ := hi.plain
    have hreads : d.ReadsMark := (h0.congr ht hl).readsMark
    obtain ⟨hterms, hset⟩ := hreads.settled_terms (ws := ws) hd hm m
    refine ⟨?_, hterms.trans ht, ((settled_act_spares ws d i m).lines hlines).trans hl⟩
    rw [hb, hset, hmask hb]
    simp only [Effect.mask, changedTerms_of_same (act_network hd), ite_self, beq_self_eq_true, Bool.and_self]
  staysAfter {d ws i m} h hi := by
    obtain ⟨hd, hm, -⟩ := hi.plain
    have hterms := ((h.readsMark h0.readsMark).settled_terms (ws := ws) hd hm m).1
    exact ⟨fun y hy => by rw [hterms]; exact h.others y hy, by rw [hterms]; exact h.moved⟩
  moves {b d ws m} h hmask := by
    obtain ⟨hb, ht, hl⟩ := h
    have hzero : m = 0 := (hmask hb).trans (changedTerms_of_same rfl)
    obtain ⟨hothers, hmoved⟩ := (markLevel_moves (h0.congr ht hl) ws).1
    rw [hzero]
    exact ⟨fun i hi => by rw [hothers i hi, ht], by rw [hmoved, ht]⟩

/-! ## The unit, followed -/

/-- The events at the unit that still wait: its clock, where it is due. -/
def clockWaits (k : Fin 6) (due taken : Bool) : List Job := if due && !taken then [.timerClock k .mark] else []

theorem mem_clockWaits {k : Fin 6} {due taken : Bool} {j : Job} (h : j ∈ clockWaits k due taken) :
    due = true ∧ taken = false ∧ j = .timerClock k .mark := by
  cases due <;> cases taken <;> simp_all [clockWaits]

/-- Where the edge is: still with the change of MARK, waiting at the unit, or taken. -/
inductive EdgeStage (level : Bool) (c : Cond) (v : Bool) (Before : Bool → Device → Prop) (After : Device → Prop) (k : Fin 6) (b : Bool) (d : Device) :
    List Job → Bool → Prop
  | before : Before b d → EdgeStage level c v Before After k b d [.markLevel level] false
  | waits : After d → EdgeStage level c v Before After k b d [.timerEdge k c v] false
  | taken : After d → EdgeStage level c v Before After k b d [] true

/-- The unit, followed through the change of MARK: which of its edge and its clock it has taken, and which still wait. -/
def UnitAtMark (level : Bool) (c : Cond) (v : Bool) (Before : Bool → Device → Prop) (After : Device → Prop) (k : Fin 6) (x : Timer) (due held : Bool)
    (b : Bool) (d : Device) (ts : List Job) : Prop :=
  ∃ (e t : Bool) (es : List Job), (t = true → due = true) ∧ x.Took v held e t d.timers[k] ∧ EdgeStage level c v Before After k b d es e
    ∧ ts.Perm (es ++ clockWaits k due t)

/-- The events that can wait. -/
def ComesWithMark (level : Bool) (j : Job) (n : Nat) : Prop := (j = .markLevel level ∧ n ≠ 0) ∨ j.followsMark

section
variable {level : Bool} {c : Cond} {v : Bool} {Before : Bool → Device → Prop} {After : Device → Prop} {k : Fin 6} {x : Timer} {due held : Bool}

theorem EdgeStage.stays (source : MovedByMark level c v Before After) {b : Bool} {d : Device} {es : List Job} {e : Bool}
    (h : EdgeStage level c v Before After k b d es e) {ws : List Job} {j : Job} {m : TermSet} (hj : j.followsMark)
    (hmask : b = true → m = (act ws d j).mask d) :
    EdgeStage level c v Before After k (b && (settle d (act ws d j).dev m).2 == 0) (settled d (act ws d j) m) es e := by
  cases h with
  | before h => exact .before (source.staysBefore h hj hmask)
  | waits h => exact .waits (source.staysAfter h hj)
  | taken h => exact .taken (source.staysAfter h hj)

/-- No event but the change of MARK moves the condition. -/
theorem EdgeStage.level_stands (source : MovedByMark level c v Before After) {b : Bool} {d : Device} {es : List Job} {e : Bool}
    (h : EdgeStage level c v Before After k b d es e) {ws : List Job} {j : Job} {m : TermSet} (hj : j.followsMark)
    (hmask : b = true → m = (act ws d j).mask d) : d.level c = (settled d (act ws d j) m).level c := by
  cases h with
  | before h => exact (source.levelBefore h).trans (source.levelBefore (source.staysBefore h hj hmask)).symm
  | waits h => exact (source.levelAfter h).trans (source.levelAfter (source.staysAfter h hj)).symm
  | taken h => exact (source.levelAfter h).trans (source.levelAfter (source.staysAfter h hj)).symm

/-- The change of MARK itself: the edge goes to the unit. -/
theorem UnitAtMark.mark (source : MovedByMark level c v Before After) (hinput : x.input = c) (hclock : x.clock ≠ .cascade) {b b' : Bool} {d : Device}
    {ws : List Job} {m : TermSet} (hmask : b = true → m = (act ws d (.markLevel level)).mask d)
    (h : UnitAtMark level c v Before After k x due held b d ((Job.markLevel level :: ws).filter (Job.atUnit k))) :
    UnitAtMark level c v Before After k x due held b' (settled d (act ws d (.markLevel level)) m)
      (ws.filter (Job.atUnit k) ++ (handedOn d (act ws d (.markLevel level)) m).filter (Job.atUnit k)) := by
  obtain ⟨e, t, es, ht, htook, hstage, hperm⟩ := h
  rw [List.filter_cons_of_pos (by simp [Job.atUnit, Job.movesLines])] at hperm
  have hmem : Job.markLevel level ∈ es := by
    refine (List.mem_append.mp (hperm.mem_iff.mp List.mem_cons_self)).resolve_right fun hc => ?_
    cases (mem_clockWaits hc).2.2
  have hw := htook.wiring
  cases hstage with
  | before hbefore =>
    have hafter := source.moves hbefore hmask
    have hedge : (handedOn d (act ws d (.markLevel level)) m).filter (Job.atUnit k) = [.timerEdge k c v] := by
      rw [handedOn_unit (by rw [hw.clock]; exact hclock), hw.input, hinput, source.levelBefore hbefore, source.levelAfter hafter,
        if_pos (by cases v <;> decide)]
    rw [hedge]
    refine ⟨false, t, _, ht, ?_, .waits hafter, (List.Perm.append_right _ hperm.cons_inv).trans List.perm_append_comm⟩
    rw [event_unit ws d rfl m]
    exact htook
  | waits => cases List.mem_singleton.mp hmem
  | taken => cases hmem

/-- Any other event. -/
theorem UnitAtMark.follows (source : MovedByMark level c v Before After) (hinput : x.input = c)
    (hdue : due = true → x.clock = .mark ∧ ∀ d : Device, d.level x.hold = held) {b : Bool} {d : Device} {ws : List Job} {j : Job} {m : TermSet}
    (hj : j.followsMark) (hmask : b = true → m = (act ws d j).mask d)
    (h : UnitAtMark level c v Before After k x due held b d ((j :: ws).filter (Job.atUnit k))) :
    UnitAtMark level c v Before After k x due held (b && (settle d (act ws d j).dev m).2 == 0) (settled d (act ws d j) m) (ws.filter (Job.atUnit k)) := by
  obtain ⟨e, t, es, ht, htook, hstage, hperm⟩ := h
  have hstays := hstage.stays source (ws := ws) hj hmask
  have hw := htook.wiring
  have htimers : (settled d (act ws d j) m).timers = (act ws d j).dev.timers := by
    obtain ⟨_, _, _, _, hs⟩ := settled_frame d (act ws d j) m
    rw [hs]
  cases hat : j.atUnit k with
  | false =>
    rw [List.filter_cons_of_neg (by simp [hat])] at hperm
    refine ⟨e, t, es, ht, ?_, hstays, hperm⟩
    rw [event_unit ws d (Bool.or_eq_false_iff.mp hat).1 m]
    exact htook
  | true =>
    rw [List.filter_cons_of_pos hat] at hperm
    rcases List.mem_append.mp (hperm.mem_iff.mp List.mem_cons_self) with hmem | hmem
    · cases hstage with
      | before => exact absurd (List.mem_singleton.mp hmem) (hj.plain.2.1 level)
      | waits hafter =>
        obtain rfl := List.mem_singleton.mp hmem
        refine ⟨true, t, [], ht, ?_, .taken (source.staysAfter hafter hj), hperm.cons_inv⟩
        rw [htimers]
        show x.Took v held true t (d.edgeTimer k c v).timers[k]
        rw [Device.edgeTimer_unit (hw.input.trans hinput)]
        exact htook.edge
      | taken => cases hmem
    · obtain ⟨hd, rfl, rfl⟩ := mem_clockWaits hmem
      obtain ⟨hmark, hheld⟩ := hdue hd
      have hwaits : clockWaits k due false = [.timerClock k .mark] := by rw [hd]; rfl
      rw [hwaits] at hperm
      refine ⟨e, true, es, fun _ => hd, ?_, hstays, ?_⟩
      · rw [htimers]
        show x.Took v held e true (d.clockTimer k .mark).1.timers[k]
        rw [Device.clockTimer_unit (hw.clock.trans hmark), hw.hold, hheld]
        exact htook.clock
      · rw [hd]
        exact (hperm.trans List.perm_append_comm).cons_inv.trans (by simp [clockWaits])

/-- The unit at a change of MARK, event by event. -/
theorem unitAtMark_tracks (source : MovedByMark level c v Before After) (hinput : x.input = c) (hclock : x.clock ≠ .cascade)
    (hdue : due = true → x.clock = .mark ∧ ∀ d : Device, d.level x.hold = held) :
    FreshTracks (ComesWithMark level) (Job.atUnit k) id (UnitAtMark level c v Before After k x due held) where
  perm hp h := by
    obtain ⟨e, t, es, ht, htook, hstage, hperm⟩ := h
    exact ⟨e, t, es, ht, htook, hstage, hp.symm.trans hperm⟩
  choices o h := by
    obtain ⟨e, t, es, ht, htook, hstage, hperm⟩ := h
    refine ⟨e, t, es, ht, htook, ?_, hperm⟩
    cases hstage with
    | before h => exact .before (source.choicesBefore o h)
    | waits h => exact .waits (source.choicesAfter o h)
    | taken h => exact .taken (source.choicesAfter o h)
  act {b ws d j n m} hj _ _ _ hmask h := by
    rcases hj with ⟨rfl, hn⟩ | hj
    · rw [if_neg hn]
      exact h.mark source hinput hclock hmask
    · have hnone : (if n = 0 then [] else (handedOn d (act ws d j) m).filter (Job.atUnit k)) = [] := by
        obtain ⟨e, t, es, -, htook, hstage, -⟩ := h
        have hw := htook.wiring
        rw [handedOn_unit (by rw [hw.clock]; exact hclock), hw.input, hinput, if_neg (not_not.mpr (hstage.level_stands source hj hmask)), ite_self]
      rw [hnone, List.append_nil]
      exact h.follows source hinput hdue hj hmask
  handsOn _ _ _ _ _ _ hx := .inr (.inl (fromOutside_of_mem_handedOn hx))
  command h := by
    rcases h with ⟨h, -⟩ | h | ⟨_, h⟩ <;> cases h

/-- Where nothing waits any more, the edge has been taken, and the clock where it was due. -/
theorem UnitAtMark.done {b : Bool} {d : Device} (h : UnitAtMark level c v Before After k x due held b d []) : x.Took v held true due d.timers[k] := by
  obtain ⟨e, t, es, ht, htook, hstage, hperm⟩ := h
  obtain ⟨hes, hwaits⟩ := List.append_eq_nil_iff.mp (List.nil_perm.mp hperm)
  have hdue : due = t := by
    cases due <;> cases t <;> simp_all [clockWaits]
  cases hstage with
  | before | waits => cases hes
  | taken => exact hdue ▸ htook

theorem markRoots_atUnit (d : Device) (level : Bool) (k : Fin 6) :
    (Job.markLevel level :: (if level then d.clockRoots .mark else [])).filter (Job.atUnit k)
      = .markLevel level :: clockWaits k (level && d.timers[k].clock == .mark) false := by
  have hclocks : (d.clockRoots .mark).filter (Job.atUnit k) = (d.clockRoots .mark).filter (Job.movesUnit k) :=
    List.filter_congr fun j hj => by
      obtain ⟨i, -, rfl⟩ := List.mem_map.mp hj
      exact Bool.or_false _
  rw [List.filter_cons_of_pos (by simp [Job.atUnit, Job.movesLines])]
  cases level with
  | false => rfl
  | true =>
    rw [if_pos rfl, hclocks, d.clockRoots_unit .mark k]
    simp [clockWaits]

/-- R53, R106, R107: a unit at a change of MARK that moves its input takes its edge, and its clock before or after it where one is due. -/
theorem Device.markChange_reader {d : Device} (source : MovedByMark level d.timers[k].input v Before After) (hbefore : Before true d)
    (hclock : d.timers[k].clock ≠ .cascade)
    (hheld : level = true → d.timers[k].clock = .mark → ∀ d' : Device, d'.level d.timers[k].hold = held) :
    d.timers[k].Took v held true (level && d.timers[k].clock == .mark) (d.markChange level).timers[k] := by
  have hdue : (level && d.timers[k].clock == .mark) = true → d.timers[k].clock = .mark ∧ ∀ d' : Device, d'.level d.timers[k].hold = held := fun h => by
    obtain ⟨hl, hc⟩ := Bool.and_eq_true_iff.mp h
    exact ⟨beq_iff_eq.mp hc, hheld hl (beq_iff_eq.mp hc)⟩
  have start : UnitAtMark level d.timers[k].input v Before After k d.timers[k] (level && d.timers[k].clock == .mark) held true d
      ((Job.markLevel level :: (if level then d.clockRoots .mark else [])).filter (Job.atUnit k)) :=
    ⟨false, false, [.markLevel level], Bool.noConfusion, rfl, .before hbefore, by rw [markRoots_atUnit]; rfl⟩
  obtain ⟨b, h⟩ := (unitAtMark_tracks source rfl hclock hdue).runRoots d _ markRoots_modest
    (fun j hj => by
      rcases mem_markRoots hj with rfl | ⟨-, i, rfl⟩
      · exact .inl ⟨rfl, by decide⟩
      · exact .inr (.inr ⟨i, rfl⟩)) start
  exact h.done

end

/-- Settles O55: the modes one by one, and a unit followed through a change of MARK that moves its input. -/
theorem timerEdgesAndClocksByMode : Obligations.TimerEdgesAndClocksByMode := by
  refine ⟨timerModes, fun level s hr hm => ⟨_, exec_markLevelChange_taken hr hm, fun k => ?_⟩⟩
  intro x edge
  have unclocked : x.clock = .tick ∨ x.clock = .cycle → x.clock ≠ .cascade ∧ x.clock ≠ .mark := fun h => by
    rcases h with h | h <;> rw [h] <;> decide
  refine ⟨fun hin hclk => ?_, fun hin hclk hl hh => ?_, fun j v hmoves hin hclk => ?_⟩
  · have source : MovedByMark level x.input level _ _ := hin ▸ markLevel_movedByMark level
    have hcascade : x.clock ≠ .cascade := by
      rcases hclk with h | h | ⟨h, -⟩ <;> rw [h] <;> decide
    have htook := Device.markChange_reader (held := true) source hm hcascade fun hl hc d' => by
      rcases hclk with h | h | ⟨-, h | h⟩
      · exact absurd hc (unclocked (.inl h)).2
      · exact absurd hc (unclocked (.inr h)).2
      · rw [hl] at h
        cases h
      · rw [show s.dev.timers[k].hold = .fixed true from h]
        rfl
    cases hdue : level && s.dev.timers[k].clock == .mark <;> rw [hdue] at htook
    · exact htook
    · exact htook.elim id id
  · have source : MovedByMark level x.input level _ _ := hin ▸ markLevel_movedByMark level
    have htook := Device.markChange_reader (held := false) source hm (by rw [show s.dev.timers[k].clock = .mark from hclk]; decide) fun _ _ d' => by
      rw [show s.dev.timers[k].hold = .fixed false from hh]
      rfl
    rw [hl, show s.dev.timers[k].clock = .mark from hclk] at htook
    rw [hl]
    exact htook
  · have source : MovedByMark level x.input v _ _ := hin ▸ term_movedByMark hmoves
    obtain ⟨hcascade, hmark⟩ := unclocked hclk
    have htook := Device.markChange_reader (held := false) source ⟨rfl, rfl, rfl⟩ hcascade fun _ hc => absurd hc hmark
    rw [beq_eq_false_iff_ne.mpr hmark, Bool.and_false] at htook
    exact htook

end Sys2Proof.Machine
